-- ==== Sys2Proof/Word.lean ====
section
/-! DEFINITION. The words of the block: 32-bit operands and results, 16-bit lanes, the 1-bit selector, and the
two target widths of the saturation primitive (spec/00_scope.md R4). -/

namespace Sys2Proof

/-- An operand, a packed container or a result: `W = 32` bits (R4). -/
abbrev Word := BitVec 32

/-- One lane of a packed container: `L = 16` bits (R4). -/
abbrev Lane := BitVec 16

/-- The operation selector on port `op`: 1 bit (R16, R27). -/
abbrev Selector := BitVec 1

/-- The target width of the saturation primitive, "one of 16 and 32" (R4, R34). -/
inductive Width where
  | w16
  | w32
deriving DecidableEq, Repr

end Sys2Proof
end

