-- ==== Sys2Proof/Machine/Operands.lean ====
section
/-! DEFINITION. How the raw bits of a port are read as integers and lanes, and put back
(spec/00_scope.md R6 to R9, spec/20_memory.md R21). -/

namespace Sys2Proof.Machine

/-- `sint_k(v)`, the two's-complement reading of a `k`-bit vector (R7). -/
def sint {k : Nat} (v : BitVec k) : Int :=
  if v.msb then (v.toNat : Int) - 2 ^ k else v.toNat

/-- `bits_k(n)`, the `k`-bit vector whose unsigned reading is `n mod 2^k` (R7). -/
def bits (k : Nat) (n : Int) : BitVec k := BitVec.ofInt k n

/-- The number of bits of a target width (R4). -/
def bitsOf : Width → Nat
  | .w16 => 16
  | .w32 => 32

/-- `MAX(w) = 2^(w-1) - 1` (R8). -/
def maxOf (w : Width) : Int := 2 ^ (bitsOf w - 1) - 1

/-- `MIN(w) = -2^(w-1)` (R8). -/
def minOf (w : Width) : Int := -2 ^ (bitsOf w - 1)

/-- Lane 0, the low lane of a PackedPair: `v[15:0]` (R21). -/
def loLane (v : Word) : Lane := v.extractLsb' 0 16

/-- Lane 1, the high lane of a PackedPair: `v[31:16]` (R21). -/
def hiLane (v : Word) : Lane := v.extractLsb' 16 16

/-- The PackedPair `{hi, lo}`: `hi` in bits [31:16], `lo` in bits [15:0] (R6, R50). -/
def packLanes (hi lo : Lane) : Word := hi ++ lo

/-- The exact sum of two operands read as signed, an unbounded integer (R37, R38). -/
def exactSum {k : Nat} (u v : BitVec k) : Int := sint u + sint v

end Sys2Proof.Machine
end

