-- ==== Sys2Proof/Machine/Flags.lean ====
section
/-! DEFINITION. The saturation primitive, which makes the value and the indicator together
(spec/40_saturation_primitive.md R34), and the indicator of the packed operation (spec/42_packed_add16.md R51). -/

namespace Sys2Proof.Machine

/-- `saturate(x, w) = (clamped, didSaturate)` (R34). -/
def saturate (x : Int) (w : Width) : Int × Bool :=
  if x > maxOf w then (maxOf w, true)
  else if x < minOf w then (minOf w, true)
  else (x, false)

/-- "`didSaturate` is the logical OR of the two lanes' saturation flags" (R51). -/
def eitherLane (fHi fLo : Bool) : Bool := fLo || fHi

end Sys2Proof.Machine
end

