-- ==== Sys2Proof/Syntax.lean ====
section
/-! DEFINITION. The operation requests of the block, whole: the two rows of spec/opcode_table.json
(spec/30_encoding.md R27, R32), and the two forms in which a request reaches a decoder. -/

namespace Sys2Proof

/-- An operation, decoded, with its two operand VALUES: "`a` and `b` are used exactly as presented" (R29); they
are never register names (R31). One constructor per row of spec/opcode_table.json; the set is closed (R32). -/
inductive Instr where
  /-- `QADD a, b`: scalar 32-bit saturating add (R40). -/
  | qadd (a b : Word)
  /-- `QADD16 a, b`: packed dual 16-bit saturating add (R48). -/
  | qadd16 (a b : Word)
deriving DecidableEq, Repr

/-- An operation request as the input ports carry it, format `SEL`: the triple `(op, a, b)` (R27). The operands
"are not encoded into a word" with the selector. -/
structure Request where
  op : Selector
  a : Word
  b : Word
deriving DecidableEq, Repr

/-- A request written with plain numbers, as something wider than the ports may write it. Its selector may be a
value the 1-bit port cannot carry, which a decoder "must refuse ... by name" (R30). -/
structure RawRequest where
  sel : Nat
  a : Nat
  b : Nat
deriving DecidableEq, Repr

/-- Why a raw request is refused. -/
inductive DecodeError where
  /-- Raised by `decodeRaw`: the selector value is neither of the two of R28. Safe: the hardware's 1-bit port
  has no such value, so nothing is claimed of it (R30, R73). -/
  | selectorNotEncoded (sel : Nat)
  /-- Raised by `decodeRaw`: an operand that is no 32-bit value (R16, R31). DESIGN CHOICE, safe: the port cannot carry it,
  and no rule asks for the refusal (log 10). -/
  | operandNotAWord (value : Nat)
deriving DecidableEq, Repr

end Sys2Proof
end

