-- ==== Sys2Proof/WellFormed.lean ====
section
/-! DEFINITION. Which requests the hardware's ports can carry. -/

namespace Sys2Proof

/-- Every decoded operation is legal, whatever its operands: "Every operand value is legal for both operations"
(spec/30_encoding.md R30, spec/10_state.md R19). -/
def Instr.wellFormed : Instr → Bool
  | .qadd _ _ => true
  | .qadd16 _ _ => true

/-- The selector is one of the two values of R28. -/
def RawRequest.selectorWellFormed (r : RawRequest) : Bool := r.sel < 2

/-- Both operands are 32-bit values (R16, R31). -/
def RawRequest.operandsWellFormed (r : RawRequest) : Bool := r.a < 2 ^ 32 && r.b < 2 ^ 32

/-- The request is one of the `2^65` triples of the ports (R19). -/
def RawRequest.wellFormed (r : RawRequest) : Bool := r.selectorWellFormed && r.operandsWellFormed

end Sys2Proof
end

