-- ==== Sys2Proof/Decode.lean ====
section
/-! DEFINITION. Decoding and encoding of operation requests (spec/30_encoding.md R27, R28, R30, R33), and the
written form of a request and of its outcome (R31). -/

namespace Sys2Proof

/-- The decoder of a request on the ports, total: "read `op`; if it is 0 the request is `QADD a, b`, if it is 1
it is `QADD16 a, b`" (R33). -/
def decode (r : Request) : Instr :=
  if r.op = 0 then .qadd r.a r.b else .qadd16 r.a r.b

/-- The request that stands for an operation (R28). -/
def encode : Instr → Request
  | .qadd a b => { op := 0, a := a, b := b }
  | .qadd16 a b => { op := 1, a := a, b := b }

/-- A selector written as a number: 0 and 1 are the values of R28, every other is refused by name (R30). -/
def selectorOf : Nat → Except DecodeError Selector
  | 0 => .ok 0
  | 1 => .ok 1
  | n => .error (.selectorNotEncoded n)

/-- An operand written as a number: a 32-bit value (R31). DESIGN CHOICE, safe: a number the 32-bit port cannot carry (R16) is
refused by name, as R30 asks of a selector only (log 10). -/
def operandOf (n : Nat) : Except DecodeError Word :=
  if n < 2 ^ 32 then .ok (BitVec.ofNat 32 n) else .error (.operandNotAWord n)

/-- The decoder of a request written with plain numbers: total, and refusing a selector outside R28 by name (R30). DESIGN
CHOICE, safe: of several parts the ports cannot carry, the first is named, in the order selector, `a`, `b` (log 10). -/
def decodeRaw (r : RawRequest) : Except DecodeError Instr :=
  match selectorOf r.sel, operandOf r.a, operandOf r.b with
  | .ok op, .ok a, .ok b => .ok (decode { op := op, a := a, b := b })
  | .error e, _, _ => .error e
  | .ok _, .error e, _ => .error e
  | .ok _, .ok _, .error e => .error e

/-- The raw form of an operation's request. -/
def encodeRaw (i : Instr) : RawRequest :=
  { sel := (encode i).op.toNat, a := (encode i).a.toNat, b := (encode i).b.toNat }

/-- The host's question: the operation read from the selector word `w` of `nbits` bits, bit 0 being `op`. The number is
read whole, never cut to `nbits` bits, so whatever is not 0 or 1 is refused (R30). DESIGN CHOICE, safe: a word of no
bits carries no `op` and is refused, and the operands, to which the table gives no bits, are words of zeros (log 6). -/
def decodeTableWord (nbits w : Nat) : Option Instr :=
  if nbits = 0 then none
  else
    match decodeRaw { sel := w, a := 0, b := 0 } with
    | .ok i => some i
    | .error _ => none

/-- The mnemonic the source attaches to an operation (R28, R32). -/
def Instr.mnemonic : Instr → String
  | .qadd _ _ => "QADD"
  | .qadd16 _ _ => "QADD16"

/-- The lowest `n` hexadecimal digits of a number, the most significant first, in capitals (R6). -/
def hexDigits : Nat → Nat → String
  | 0, _ => ""
  | n + 1, v =>
    hexDigits n (v / 16) ++
      (["0", "1", "2", "3", "4", "5", "6", "7", "8", "9", "A", "B", "C", "D", "E", "F"].getD (v % 16) "")

/-- A 32-bit value as R31 writes it, `0xhhhhhhhh`. -/
def wordText (v : Word) : String := "0x" ++ hexDigits 8 v.toNat

/-- The operands of an operation, in the order of the ports. -/
def Instr.operands : Instr → Word × Word
  | .qadd a b => (a, b)
  | .qadd16 a b => (a, b)

/-- A request as R31 writes it: `QADD <a>, <b>`. -/
def Instr.text (i : Instr) : String :=
  i.mnemonic ++ " " ++ wordText i.operands.1 ++ ", " ++ wordText i.operands.2

/-- A request with its outcome as R31 writes it: `QADD <a>, <b> -> (<result>, <sat>)`. -/
def Instr.outcomeText (i : Instr) (result : Word) (sat : Bool) : String :=
  i.text ++ " -> (" ++ wordText result ++ ", " ++ (if sat then "1" else "0") ++ ")"

end Sys2Proof
end

