-- ==== Sys2Proof/Machine/State.lean ====
section
/-! DEFINITION. The state of the machine: the levels of the block's input ports (spec/10_state.md R16) and the outcome the
caller took last; why a step could stop; and the state after reset. -/

namespace Sys2Proof.Machine

/-- What is driven onto the block, and what was taken from it. The block itself holds nothing (R10): `op`, `a` and `b` are
the input ports, which the caller drives. The output ports `result` and `sat` are NO fields: they are not stored but
"function of current inputs" (R18, R77), the definitions `State.result` and `State.sat` of Machine/Block.lean. -/
structure State where
  /-- Input port `op`, the operation selector (R16, R28). -/
  op : Selector
  /-- Input port `a`, the first operand, raw bits (R16). -/
  a : Word
  /-- Input port `b`, the second operand, raw bits (R16). -/
  b : Word
  /-- The model's own field, no part of the block: the pair `(result, sat)` the caller took at the last evaluation, both
  of one triple (R23, R77). DESIGN CHOICE, safe: a step shows its outcome here, and nothing reads it (log 1). -/
  taken : Word × Bool
deriving DecidableEq, Repr

/-- Why the machine stops with a fault: never. "No evaluation of either operation, on any operand values, raises an
exception, traps, faults, signals an error" (spec/60_exceptions.md R66), and the block "has no fault
constructor" (R73). -/
inductive Fault
deriving DecidableEq, Repr

/-- Why an instruction has no meaning: the reason type of the host's third outcome, `refused` (Host/Core.lean). -/
inductive Refusal where
  /-- The one constructor the host's interface fixes for a model's Refusal; no rule of spec/ gives it, and R73 has no such
  constructor. Raised by no arm: both operations have their meaning, and no step is refused. DESIGN CHOICE, safe: a
  departure in the type alone, and nothing is claimed of an instruction that would stop so (log 9). The refusal R73 allows, of a selector wider than the port's, is `DecodeError.selectorNotEncoded`. -/
  | notModelled (mnemonic : String)
deriving DecidableEq, Repr

/-- The machine right after reset. The block takes no reset (spec/70_reset_and_hazards.md R74). DESIGN CHOICE, unsafe: the
caller drives all inputs to 0; the output ports then show what R18 makes them show, and `taken` starts as that
outcome, `(0, 0)` (log 3). -/
def State.reset : State :=
  { op := 0, a := 0, b := 0, taken := (0, false) }

end Sys2Proof.Machine
end

