-- ==== Sys2Proof/Machine/Ops.lean ====
section
/-! DEFINITION. The named operations over the ports. The block has no registers and no memory (spec/10_state.md R11,
R15) and takes no exception (spec/60_exceptions.md R66, R69), so there is no other operation to share. -/

namespace Sys2Proof.Machine

/-- The request on the input ports (R16, R27). -/
def State.request (s : State) : Request := { op := s.op, a := s.a, b := s.b }

/-- The caller drives a request onto the input ports (R60, R61): not an act of the block. The output ports follow (R18,
R77); what was taken before stays what was taken. -/
def State.present (s : State) (r : Request) : State := { s with op := r.op, a := r.a, b := r.b }

/-- The outcome of an evaluation is taken, `result` and `sat` together and always both (R13, R23). The inputs are held
(R77; log 5). -/
def State.take (s : State) (out : Word × Bool) : State := { s with taken := out }

/-- The operation a step runs: the one on the input ports now (R33, R58). -/
def State.fetch (s : State) : Instr := decode s.request

/-- The host's word of `nbits` bits driven onto the input ports, the operands zero. A word that is no selector of
R28 cannot be driven onto the 1-bit port and leaves the ports alone (log 6). -/
def State.presentTableWord (s : State) (nbits w : Nat) : State :=
  match decodeTableWord nbits w with
  | some i => s.present (encode i)
  | none => s

end Sys2Proof.Machine
end

