-- ==== Sys2Proof/Machine/PackedAdd.lean ====
section
/-! DEFINITION. `QADD16` (spec/42_packed_add16.md). -/

namespace Sys2Proof.Machine

/-- `qadd16_lane(u, v)`, one lane and its internal flag (R54). -/
def qadd16Lane (u v : Lane) : Lane × Bool :=
  let (c, f) := saturate (exactSum u v) .w16
  (bits 16 c, f)

/-- The sub-block `saturating_adder_16_packed_dual` (R17): `QADD16(a, b) = (result, sat)` of R48. Each lane stands
alone (R52); only the indicator mixes them (R51). -/
def saturatingAdder16PackedDual (a b : Word) : Word × Bool :=
  let (rLo, fLo) := qadd16Lane (loLane a) (loLane b)
  let (rHi, fHi) := qadd16Lane (hiLane a) (hiLane b)
  (packLanes rHi rLo, eitherLane fHi fLo)

/-- The evaluation of `QADD16 a, b` (R48): "State written: none; the two outputs only". It has one outcome (R73). -/
def runQadd16 (a b : Word) (s : State) : State := s.take (saturatingAdder16PackedDual a b)

/-- `QADD16 a, b` (R48) under the host's three-outcome interface (log 9). -/
def execQadd16 (a b : Word) (s : State) : Host.Outcome State Fault Refusal := .next (runQadd16 a b s)

end Sys2Proof.Machine
end

