-- ==== Sys2Proof/Machine/ScalarAdd.lean ====
section
/-! DEFINITION. `QADD` (spec/41_scalar_add.md). -/

namespace Sys2Proof.Machine

/-- The sub-block `saturating_adder_32` (R17): `QADD(a, b) = (result, sat)` of R40. -/
def saturatingAdder32 (a b : Word) : Word × Bool :=
  let (c, f) := saturate (exactSum a b) .w32
  (bits 32 c, f)

/-- The evaluation of `QADD a, b` (R40): "State written: none; the two outputs only". It has one outcome (R73). -/
def runQadd (a b : Word) (s : State) : State := s.take (saturatingAdder32 a b)

/-- `QADD a, b` (R40) under the host's three-outcome interface (log 9). -/
def execQadd (a b : Word) (s : State) : Host.Outcome State Fault Refusal := .next (runQadd a b s)

end Sys2Proof.Machine
end

