-- ==== Sys2Proof/Machine/Block.lean ====
section
/-! DEFINITION. The function of the whole block (spec/43_block_function.md R58), and its output ports
(spec/10_state.md R16, R18), and one evaluation of it (spec/60_exceptions.md R73). -/

namespace Sys2Proof.Machine

/-- `sau(op, a, b) = (result, sat)`: the outputs are those of the sub-block `op` selects; the other has no effect
(R17, R58). -/
def sau (op : Selector) (a b : Word) : Word × Bool :=
  if op = 0 then saturatingAdder32 a b else saturatingAdder16PackedDual a b

/-- What the output ports carry, `(result, sat)`: at any time "`sau(op, a, b)` for the `(op, a, b)` currently on the input
ports" (R18, R58), "with no storage between them" (R77). -/
def State.outputs (s : State) : Word × Bool := sau s.op s.a s.b

/-- Output port `result` (R16). -/
def State.result (s : State) : Word := s.outputs.1

/-- Output port `sat`, driven always (R13, R16). -/
def State.sat (s : State) : Bool := s.outputs.2

/-- The evaluation of an operation, "a single dispatch function" over the two (R58). -/
def run (i : Instr) (s : State) : State :=
  match i with
  | .qadd a b => runQadd a b s
  | .qadd16 a b => runQadd16 a b s

/-- The block's step function: the evaluation of the operation on the input ports. Its type has "one outcome, the value of"
R58, with no fault and no refusal in it (R73), and `step` is built from it. -/
def evaluate (s : State) : State := run s.fetch s

end Sys2Proof.Machine
end

