-- ==== Sys2Proof/Machine/Dispatch.lean ====
section
/-! DEFINITION. One arm per operation of spec/opcode_table.json (spec/30_encoding.md R32). -/

namespace Sys2Proof.Machine

def exec (i : Instr) (s : State) : Host.Outcome State Fault Refusal :=
  match i with
  | .qadd a b => Sys2Proof.Machine.execQadd a b s
  | .qadd16 a b => Sys2Proof.Machine.execQadd16 a b s

end Sys2Proof.Machine
end

