-- ==== Sys2Proof/Machine/Step.lean ====
section
/-! DEFINITION. One step: one evaluation of the request on the input ports (spec/43_block_function.md R58, R60). -/

namespace Sys2Proof.Machine

/-- One evaluation, always a next state (R73): the operation on the input ports runs and its outcome is taken. DESIGN CHOICE, safe: the block
has no step of its own, "one evaluation is one application of `sau` made by the caller" (R60; log 2). -/
def step (s : State) : Host.Outcome State Fault Refusal := .next (evaluate s)

/-- The host's placing of an instruction where `step` reads its next one: on the input ports (log 6). -/
def State.withFetchWord (s : State) (nbits w : Nat) : State := s.presentTableWord nbits w

end Sys2Proof.Machine
end

