-- ==== Sys2Proof/Safety.lean ====
section
/-! DEFINITION. The terms in which claims about the block are made: which output is right for an exact sum, when
a state is settled, and what a caller takes from a list of requests. -/

namespace Sys2Proof.Machine

/-- `i -> (result, sat)` in the notation of R31, and the frame with it: from EVERY state the operation completes, gives
these two outputs and changes nothing else (R10, R40, R48). That the outcome shows in `taken` is the model's choice
(log 1). -/
abbrev Gives (i : Instr) (out : Word × Bool) : Prop :=
  ∀ s : State, exec i s = .next { s with taken := out }

/-- The integer `n` has no `k`-bit signed representation: its sum must be clamped (R34, R45). -/
abbrev OutOfRange (k : Nat) (n : Int) : Prop := n < -2 ^ (k - 1) ∨ 2 ^ (k - 1) - 1 < n

/-- The `k`-bit vector `r` shows the integer of `[-2^(k-1), 2^(k-1) - 1]` nearest to `n` (R36). -/
abbrev ShowsClamped {k : Nat} (r : BitVec k) (n : Int) : Prop :=
  r.toInt = max (-2 ^ (k - 1)) (min (2 ^ (k - 1) - 1) n)

/-- The outcome `out` is right for the request `(op, a, b)`, said of the numbers the ports stand for and not of the functions
that compute it (R36, R40, R48). -/
abbrev RightOutcome (op : Selector) (a b : Word) (out : Word × Bool) : Prop :=
  (op = 0 →
    ShowsClamped out.1 (a.toInt + b.toInt) ∧
    (out.2 = true ↔ OutOfRange 32 (a.toInt + b.toInt))) ∧
  (op = 1 →
    ShowsClamped (out.1.extractLsb' 0 16) ((a.extractLsb' 0 16).toInt + (b.extractLsb' 0 16).toInt) ∧
    ShowsClamped (out.1.extractLsb' 16 16) ((a.extractLsb' 16 16).toInt + (b.extractLsb' 16 16).toInt) ∧
    (out.2 = true ↔
      OutOfRange 16 ((a.extractLsb' 0 16).toInt + (b.extractLsb' 0 16).toInt) ∨
      OutOfRange 16 ((a.extractLsb' 16 16).toInt + (b.extractLsb' 16 16).toInt)))

/-- What was taken last is the right outcome for the request now on the input ports: `result` and `sat` "belong to the same
triple" as the inputs held (R77). -/
abbrev Settled (s : State) : Prop := RightOutcome s.op s.a s.b s.taken

/-! ### The source's six testable properties (spec/43_block_function.md R65), one definition a row -/

/-- Row 1, "Idempotent boundary" (R43): zero is an identity of the scalar operation. -/
def IdempotentBoundary : Prop := ∀ a : Word, Gives (.qadd a 0) (a, false)

/-- Row 2, "Symmetric saturation" (R44). -/
def SymmetricSaturation : Prop :=
  Gives (.qadd 0x7FFFFFFF 0x7FFFFFFF) (0x7FFFFFFF, true) ∧ Gives (.qadd 0x80000000 0x80000000) (0x80000000, true)

/-- Row 3, "No false positives", in the exact form of R45: an in-range exact sum is given as it is, unsaturated. -/
def NoFalsePositives : Prop :=
  ∀ a b : Word, ¬ OutOfRange 32 (a.toInt + b.toInt) →
    ∃ r, Gives (.qadd a b) (r, false) ∧ r.toInt = a.toInt + b.toInt

/-- Row 4, "Packed lane independence" (R52): only the low lane saturates, and the high lane stays 0. -/
def PackedLaneIndependence : Prop :=
  Gives (.qadd16 0x00007FFF 0x00000001) (0x00007FFF, true) ∧
  qadd16Lane (loLane 0x00007FFF) (loLane 0x00000001) = (0x7FFF, true) ∧
  qadd16Lane (hiLane 0x00007FFF) (hiLane 0x00000001) = (0, false)

/-- Row 5, "Literal scenario (reference test 1)" (R41). -/
def ReferenceTestOne : Prop := Gives (.qadd 0x7FFFFFFF 0x7FFFFFFF) (0x7FFFFFFF, true)

/-- Row 6, "Literal scenario (reference test 2)", with the low halfword as R53 closes it. -/
def ReferenceTestTwo : Prop :=
  Gives (.qadd16 0x7FFFFFFF 0x7FFFFFFF) (0x7FFFFFFE, true) ∧ hiLane 0x7FFFFFFE = 0x7FFF

/-! ### Lists of requests -/

/-- What a caller takes when it presents the requests of a list one after another and makes one evaluation of each
(R25, R60). A stop would end the list. -/
def serve : List Request → State → List (Word × Bool)
  | [], _ => []
  | r :: rs, s =>
    match step (s.present r) with
    | .next t => t.taken :: serve rs t
    | .fault _ => []
    | .refused _ => []

end Sys2Proof.Machine
end

