-- ==== Sys2Proof/Certificates/Slice0/Obligations.lean ====
section
/-! DEFINITION. The statements for the provers. Integers are written out, and a port is read by `BitVec.toInt`, Lean's
own two's-complement reading, so that a statement does not lean on the model's own arithmetic. -/

open Sys2Proof Sys2Proof.Machine

/-! ### Readings of the ports -/

/-- R7: `sint_k` and `bits_k` are inverse bijections between `k`-bit vectors and `[-2^(k-1), 2^(k-1) - 1]`. -/
def Obligations.SignedReadingAndBitsAreInverse : Prop :=
  ∀ k : Nat, 0 < k →
    (∀ v : BitVec k,
      (v.getLsbD (k - 1) = false → sint v = v.toNat) ∧
      (v.getLsbD (k - 1) = true → sint v = v.toNat - 2 ^ k) ∧
      -2 ^ (k - 1) ≤ sint v ∧ sint v ≤ 2 ^ (k - 1) - 1 ∧ bits k (sint v) = v) ∧
    (∀ n : Int, -2 ^ (k - 1) ≤ n → n ≤ 2 ^ (k - 1) - 1 →
      sint (bits k n) = n ∧ ((bits k n).toNat : Int) = n % 2 ^ k)

/-- R8: the range constants and their bit patterns. -/
def Obligations.RangeConstantsAreTheSpecs : Prop :=
  (∀ w : Width, maxOf w = 2 ^ (bitsOf w - 1) - 1 ∧ minOf w = -2 ^ (bitsOf w - 1)) ∧
  maxOf .w32 = 2147483647 ∧ bits 32 (maxOf .w32) = 0x7FFFFFFF ∧
  minOf .w32 = -2147483648 ∧ bits 32 (minOf .w32) = 0x80000000 ∧
  maxOf .w16 = 32767 ∧ bits 16 (maxOf .w16) = 0x7FFF ∧
  minOf .w16 = -32768 ∧ bits 16 (minOf .w16) = 0x8000

/-- R21: bit `i` of the low lane is bit `i` of the word, bit `i` of the high lane is bit `16 + i`, two lanes put
together and read again are the two lanes, and `0x7FFFFFFF` read both ways. -/
def Obligations.LanesSitAtBits15To0And31To16 : Prop :=
  (∀ (v : Word) (i : Nat), i < 16 →
    (loLane v).getLsbD i = v.getLsbD i ∧ (hiLane v).getLsbD i = v.getLsbD (16 + i)) ∧
  (∀ v : Word, packLanes (hiLane v) (loLane v) = v) ∧
  (∀ hi lo : Lane, loLane (packLanes hi lo) = lo ∧ hiLane (packLanes hi lo) = hi) ∧
  sint (0x7FFFFFFF : Word) = 2147483647 ∧
  sint (loLane 0x7FFFFFFF) = -1 ∧ sint (hiLane 0x7FFFFFFF) = 32767

/-! ### The saturation primitive -/

/-- R34: the three cases of `saturate`, its corner cases and its worked examples. -/
def Obligations.SaturateHasThreeCases : Prop :=
  (∀ w : Width, minOf w < maxOf w ∧
    (∀ x : Int,
      (maxOf w < x → saturate x w = (maxOf w, true)) ∧
      (x < minOf w → saturate x w = (minOf w, true)) ∧
      (minOf w ≤ x → x ≤ maxOf w → saturate x w = (x, false)) ∧
      minOf w ≤ (saturate x w).1 ∧ (saturate x w).1 ≤ maxOf w) ∧
    saturate (maxOf w) w = (maxOf w, false) ∧ saturate (minOf w) w = (minOf w, false) ∧
    saturate (maxOf w + 1) w = (maxOf w, true) ∧ saturate (minOf w - 1) w = (minOf w, true) ∧
    saturate 0 w = (0, false)) ∧
  saturate 65534 .w16 = (32767, true) ∧ saturate (-2) .w16 = (-2, false) ∧
  saturate 4294967294 .w32 = (2147483647, true)

/-- R36: the result is in range, is the in-range integer nearest to the exact one, is monotone and idempotent, and
the indicator is set exactly when the value changed. -/
def Obligations.SaturateClampsToTheNearestInRange : Prop :=
  ∀ (w : Width) (x : Int),
    (minOf w ≤ (saturate x w).1 ∧ (saturate x w).1 ≤ maxOf w) ∧
    ((saturate x w).2 = false ↔ minOf w ≤ x ∧ x ≤ maxOf w) ∧
    ((saturate x w).2 = false → (saturate x w).1 = x) ∧
    ((saturate x w).2 = true ↔ (saturate x w).1 ≠ x) ∧
    (∀ y : Int, minOf w ≤ y → y ≤ maxOf w → y ≠ (saturate x w).1 → |x - (saturate x w).1| < |x - y|) ∧
    (saturate x w).1 = max (minOf w) (min (maxOf w) x) ∧
    (∀ y : Int, x ≤ y → (saturate x w).1 ≤ (saturate y w).1) ∧
    saturate (saturate x w).1 w = ((saturate x w).1, false)

/-- R37: the range of the exact sum, both ends reached. -/
def Obligations.ExactSumStaysInOneMoreBit : Prop :=
  (∀ u v : BitVec 32, -4294967296 ≤ exactSum u v ∧ exactSum u v ≤ 4294967294) ∧
  (∀ u v : BitVec 16, -65536 ≤ exactSum u v ∧ exactSum u v ≤ 65534) ∧
  exactSum (0x80000000 : BitVec 32) 0x80000000 = -4294967296 ∧
  exactSum (0x7FFFFFFF : BitVec 32) 0x7FFFFFFF = 4294967294 ∧
  exactSum (0x8000 : BitVec 16) 0x8000 = -65536 ∧
  exactSum (0x7FFF : BitVec 16) 0x7FFF = 65534

/-- R38: an adder of any width of at least `w + 1` bits gives the exact sum, hence the same `saturate`; an adder of
exactly `w` bits does not. -/
def Obligations.IntermediateOfOneMoreBitSuffices : Prop :=
  (∀ k : Nat, 33 ≤ k → ∀ a b : BitVec 32,
    (a.signExtend k + b.signExtend k).toInt = exactSum a b ∧
    saturate (a.signExtend k + b.signExtend k).toInt .w32 = saturate (exactSum a b) .w32) ∧
  (∀ k : Nat, 17 ≤ k → ∀ u v : BitVec 16,
    (u.signExtend k + v.signExtend k).toInt = exactSum u v ∧
    saturate (u.signExtend k + v.signExtend k).toInt .w16 = saturate (exactSum u v) .w16) ∧
  (∃ a b : BitVec 32, saturate (a + b).toInt .w32 ≠ saturate (exactSum a b) .w32) ∧
  (∃ u v : BitVec 16, saturate (u + v).toInt .w16 ≠ saturate (exactSum u v) .w16)

/-! ### QADD -/

/-- R40: what `QADD` gives, for every pair of operands and from every state, with its corner cases. -/
def Obligations.QaddGivesTheClampedExactSum : Prop :=
  (∀ a b : Word, Gives (.qadd a b)
    (if 2147483647 < a.toInt + b.toInt then (0x7FFFFFFF, true)
     else if a.toInt + b.toInt < -2147483648 then (0x80000000, true)
     else (BitVec.ofInt 32 (a.toInt + b.toInt), false))) ∧
  (∀ a : Word, Gives (.qadd a 0) (a, false)) ∧
  (∀ a : Word, Gives (.qadd a a)
    (BitVec.ofInt 32 (saturate (2 * a.toInt) .w32).1, (saturate (2 * a.toInt) .w32).2)) ∧
  Gives (.qadd 0x7FFFFFFF 0x7FFFFFFF) (0x7FFFFFFF, true) ∧
  Gives (.qadd 0x80000000 0x80000000) (0x80000000, true) ∧
  Gives (.qadd 0x7FFFFFFE 0x00000001) (0x7FFFFFFF, false) ∧
  Gives (.qadd 0x80000001 0xFFFFFFFF) (0x80000000, false) ∧
  Gives (.qadd 0x7FFFFFFF 0x00000001) (0x7FFFFFFF, true) ∧
  Gives (.qadd 0x80000000 0xFFFFFFFF) (0x80000000, true) ∧
  Gives (.qadd 0x7FFFFFFF 0x80000000) (0xFFFFFFFF, false) ∧
  Gives (.qadd 0x12345678 0x11111111) (0x23456789, false)

/-- R41 and R44: the two extremes saturate to themselves. -/
def Obligations.QaddSaturatesSymmetrically : Prop :=
  Gives (.qadd 0x7FFFFFFF 0x7FFFFFFF) (0x7FFFFFFF, true) ∧
  Gives (.qadd 0x80000000 0x80000000) (0x80000000, true) ∧
  (0x7FFFFFFF : Word).toInt + (0x7FFFFFFF : Word).toInt = 4294967294

/-- R42: both outputs are the same with the operands exchanged. -/
def Obligations.QaddIsCommutative : Prop :=
  ∀ a b : Word, ∃ out, Gives (.qadd a b) out ∧ Gives (.qadd b a) out

/-- R43: zero is an identity on either side and never saturates. -/
def Obligations.QaddHasZeroAsIdentity : Prop :=
  ∀ a : Word, Gives (.qadd a 0) (a, false) ∧ Gives (.qadd 0 a) (a, false)

/-- R45: no false positives, in the exact form the rule adopts (90_conflicts.md C4). -/
def Obligations.QaddReportsSaturationExactly : Prop :=
  ∀ a b : Word, ∃ r f, Gives (.qadd a b) (r, f) ∧
    ((f = false ∧ r.toInt = a.toInt + b.toInt) ↔
      (-2147483648 ≤ a.toInt + b.toInt ∧ a.toInt + b.toInt ≤ 2147483647)) ∧
    (¬ (-2147483648 ≤ a.toInt + b.toInt ∧ a.toInt + b.toInt ≤ 2147483647) → f = true)

/-- R46: a wrapping 32-bit adder with a comparison of signs gives the same outputs. -/
def Obligations.QaddIsAWrappingAdderWithSignTest : Prop :=
  ∀ a b : Word,
    let s : Word := BitVec.ofNat 32 ((a.toNat + b.toNat) % 2 ^ 32)
    let ovf : Bool := a.getLsbD 31 == b.getLsbD 31 && s.getLsbD 31 != a.getLsbD 31
    Gives (.qadd a b)
      (if ovf = false then s else if a.getLsbD 31 = false then 0x7FFFFFFF else 0x80000000, ovf)

/-- R47: agreement with the wrapping sum, monotonicity, saturation only with equal signs, and the example that shows
that neither association nor cancellation may be assumed. -/
def Obligations.QaddConsequencesHold : Prop :=
  (∀ a b : Word, ∃ r f, Gives (.qadd a b) (r, f) ∧
    (f = false → r = BitVec.ofNat 32 (a.toNat + b.toNat)) ∧
    (f = true → r ≠ BitVec.ofNat 32 (a.toNat + b.toNat)) ∧
    (a.getLsbD 31 ≠ b.getLsbD 31 ∨ a = 0 ∨ b = 0 → f = false)) ∧
  (∀ a a' b : Word, ∃ r f r' f', Gives (.qadd a b) (r, f) ∧ Gives (.qadd a' b) (r', f') ∧
    (a.toInt ≤ a'.toInt → r.toInt ≤ r'.toInt)) ∧
  (∃ f g h k, Gives (.qadd 0x7FFFFFFF 0x00000001) (0x7FFFFFFF, f) ∧
    Gives (.qadd 0x7FFFFFFF 0xFFFFFFFF) (0x7FFFFFFE, g) ∧
    Gives (.qadd 0x00000001 0xFFFFFFFF) (0x00000000, h) ∧
    Gives (.qadd 0x7FFFFFFF 0x00000000) (0x7FFFFFFF, k)) ∧
  (0xFFFFFFFF : Word).toInt = -(0x00000001 : Word).toInt

/-! ### QADD16 -/

/-- R48: what `QADD16` gives, for every pair of operands and from every state, with its corner cases. -/
def Obligations.QaddSixteenGivesTheClampedLaneSums : Prop :=
  (∀ a b : Word,
    let lane (x : Int) : BitVec 16 × Bool :=
      if 32767 < x then (0x7FFF, true) else if x < -32768 then (0x8000, true) else (BitVec.ofInt 16 x, false)
    let lo := lane ((a.extractLsb' 0 16).toInt + (b.extractLsb' 0 16).toInt)
    let hi := lane ((a.extractLsb' 16 16).toInt + (b.extractLsb' 16 16).toInt)
    Gives (.qadd16 a b) (hi.1 ++ lo.1, lo.2 || hi.2)) ∧
  (∀ a : Word, Gives (.qadd16 a 0) (a, false)) ∧
  Gives (.qadd16 0x7FFF7FFF 0x7FFF7FFF) (0x7FFF7FFF, true) ∧
  Gives (.qadd16 0x80008000 0x80008000) (0x80008000, true) ∧
  Gives (.qadd16 0x00007FFF 0x00000001) (0x00007FFF, true) ∧
  Gives (.qadd16 0x7FFF0000 0x00010000) (0x7FFF0000, true) ∧
  Gives (.qadd16 0x7FFF8000 0x0001FFFF) (0x7FFF8000, true) ∧
  Gives (.qadd16 0x0000FFFF 0x00000001) (0x00000000, false) ∧
  Gives (.qadd 0x0000FFFF 0x00000001) (0x00010000, false) ∧
  Gives (.qadd16 0x00018000 0x0001FFFF) (0x00028000, true) ∧
  Gives (.qadd16 0x7FFE0001 0x00017FFE) (0x7FFF7FFF, false) ∧
  Gives (.qadd16 0x80010001 0xFFFFFFFF) (0x80000000, false) ∧
  Gives (.qadd16 0x7FFFFFFF 0x7FFFFFFF) (0x7FFFFFFE, true) ∧
  Gives (.qadd16 0xDEADBEEF 0xCAFEBABE) (0xA9AB8000, true)

/-- R49 and R50: the lane operands are the signed readings of the halves, low meets low and high meets high, and each
half of the result holds the 16 bits of its own clamped sum, a negative low one not extended into the high half. -/
def Obligations.QaddSixteenDecomposesAndReassembles : Prop :=
  (∀ v : Word, -32768 ≤ (v.extractLsb' 0 16).toInt ∧ (v.extractLsb' 0 16).toInt ≤ 32767 ∧
    -32768 ≤ (v.extractLsb' 16 16).toInt ∧ (v.extractLsb' 16 16).toInt ≤ 32767) ∧
  (∀ a b : Word, ∃ r f, Gives (.qadd16 a b) (r, f) ∧
    r.extractLsb' 0 16 =
      BitVec.ofInt 16 (saturate ((a.extractLsb' 0 16).toInt + (b.extractLsb' 0 16).toInt) .w16).1 ∧
    r.extractLsb' 16 16 =
      BitVec.ofInt 16 (saturate ((a.extractLsb' 16 16).toInt + (b.extractLsb' 16 16).toInt) .w16).1) ∧
  BitVec.ofInt 16 (-1) = 0xFFFF ∧
  Gives (.qadd16 0x00000000 0x0000FFFF) (0x0000FFFF, false)

/-- R51: `sat` is set exactly when at least one lane clamped, and requests that clamp the low lane, the high lane, both,
upwards, downwards or in opposite directions are all told by the same value of it. -/
def Obligations.QaddSixteenFlagIsTheOrOfTheLanes : Prop :=
  (∀ a b : Word, ∃ r f, Gives (.qadd16 a b) (r, f) ∧
    f = ((qadd16Lane (a.extractLsb' 0 16) (b.extractLsb' 0 16)).2 ||
      (qadd16Lane (a.extractLsb' 16 16) (b.extractLsb' 16 16)).2) ∧
    (f = true ↔
      OutOfRange 16 ((a.extractLsb' 0 16).toInt + (b.extractLsb' 0 16).toInt) ∨
      OutOfRange 16 ((a.extractLsb' 16 16).toInt + (b.extractLsb' 16 16).toInt))) ∧
  (∃ r₁ r₂ r₃ r₄ r₅, Gives (.qadd16 0x00007FFF 0x00000001) (r₁, true) ∧
    Gives (.qadd16 0x7FFF0000 0x00010000) (r₂, true) ∧
    Gives (.qadd16 0x7FFF7FFF 0x7FFF7FFF) (r₃, true) ∧
    Gives (.qadd16 0x80008000 0x80008000) (r₄, true) ∧
    Gives (.qadd16 0x7FFF8000 0x0001FFFF) (r₅, true))

/-- R52: each half of the result is a function of the same halves of the operands only, with the source's test of it. -/
def Obligations.QaddSixteenLanesAreIndependent : Prop :=
  (∀ a b a' b' : Word, ∃ r f r' f', Gives (.qadd16 a b) (r, f) ∧ Gives (.qadd16 a' b') (r', f') ∧
    (a.extractLsb' 0 16 = a'.extractLsb' 0 16 → b.extractLsb' 0 16 = b'.extractLsb' 0 16 →
      r.extractLsb' 0 16 = r'.extractLsb' 0 16) ∧
    (a.extractLsb' 16 16 = a'.extractLsb' 16 16 → b.extractLsb' 16 16 = b'.extractLsb' 16 16 →
      r.extractLsb' 16 16 = r'.extractLsb' 16 16)) ∧
  Gives (.qadd16 0x00007FFF 0x00000001) (0x00007FFF, true)

/-- R53: the source's literal scenario as the spec resolves it (90_conflicts.md C1, C2). -/
def Obligations.QaddSixteenOfReferenceTestTwo : Prop :=
  Gives (.qadd16 0x7FFFFFFF 0x7FFFFFFF) (0x7FFFFFFE, true) ∧
  Gives (.qadd16 0x7FFF7FFF 0x7FFF7FFF) (0x7FFF7FFF, true) ∧
  qadd16Lane (loLane 0x7FFFFFFF) (loLane 0x7FFFFFFF) = (0xFFFE, false) ∧
  qadd16Lane (hiLane 0x7FFFFFFF) (hiLane 0x7FFFFFFF) = (0x7FFF, true) ∧
  exactSum (loLane 0x7FFFFFFF) (loLane 0x7FFFFFFF) = -2 ∧
  exactSum (hiLane 0x7FFFFFFF) (hiLane 0x7FFFFFFF) = 65534 ∧
  (0x7FFFFFFE : Word).extractLsb' 16 16 = 0x7FFF#16 ∧ (0x7FFFFFFE : Word).extractLsb' 0 16 = 0xFFFE#16

/-- R54, first part: `QADD16` is two applications of the lane function. -/
def Obligations.QaddSixteenIsTwoLaneFunctions : Prop :=
  (∀ u v : Lane, qadd16Lane u v =
    (BitVec.ofInt 16 (saturate (u.toInt + v.toInt) .w16).1, (saturate (u.toInt + v.toInt) .w16).2)) ∧
  (∀ a b : Word, Gives (.qadd16 a b)
    ((qadd16Lane (a.extractLsb' 16 16) (b.extractLsb' 16 16)).1 ++
        (qadd16Lane (a.extractLsb' 0 16) (b.extractLsb' 0 16)).1,
      (qadd16Lane (a.extractLsb' 0 16) (b.extractLsb' 0 16)).2 ||
        (qadd16Lane (a.extractLsb' 16 16) (b.extractLsb' 16 16)).2))

/-- R54, second part: the lane function obeys the analogues of R42 to R45 and R47 at width 16. -/
def Obligations.LaneFunctionObeysTheScalarLaws : Prop :=
  (∀ u v : Lane,
    qadd16Lane u v = qadd16Lane v u ∧ qadd16Lane u 0 = (u, false) ∧
    (((qadd16Lane u v).2 = false ∧ (qadd16Lane u v).1.toInt = u.toInt + v.toInt) ↔
      (-32768 ≤ u.toInt + v.toInt ∧ u.toInt + v.toInt ≤ 32767)) ∧
    ((qadd16Lane u v).2 = false → (qadd16Lane u v).1 = BitVec.ofNat 16 (u.toNat + v.toNat)) ∧
    ((qadd16Lane u v).2 = true → (qadd16Lane u v).1 ≠ BitVec.ofNat 16 (u.toNat + v.toNat)) ∧
    (u.getLsbD 15 ≠ v.getLsbD 15 ∨ u = 0 ∨ v = 0 → (qadd16Lane u v).2 = false)) ∧
  (∀ u u' v : Lane, u.toInt ≤ u'.toInt → (qadd16Lane u v).1.toInt ≤ (qadd16Lane u' v).1.toInt) ∧
  qadd16Lane 0x7FFF 0x7FFF = (0x7FFF, true) ∧ qadd16Lane 0x8000 0x8000 = (0x8000, true) ∧
  (qadd16Lane (qadd16Lane 0x7FFF 0x0001).1 0xFFFF).1 = 0x7FFE ∧
  (qadd16Lane 0x7FFF (qadd16Lane 0x0001 0xFFFF).1).1 = 0x7FFF

/-- R55: commutative, zero an identity, the exact condition of `sat = 0`, exchange of the lanes, isolation of the
lanes, and no association. -/
def Obligations.QaddSixteenConsequencesHold : Prop :=
  (∀ a b : Word, ∃ r f, Gives (.qadd16 a b) (r, f) ∧ Gives (.qadd16 b a) (r, f) ∧
    (f = false ↔
      (-32768 ≤ (a.extractLsb' 0 16).toInt + (b.extractLsb' 0 16).toInt ∧
        (a.extractLsb' 0 16).toInt + (b.extractLsb' 0 16).toInt ≤ 32767) ∧
      (-32768 ≤ (a.extractLsb' 16 16).toInt + (b.extractLsb' 16 16).toInt ∧
        (a.extractLsb' 16 16).toInt + (b.extractLsb' 16 16).toInt ≤ 32767)) ∧
    (f = false → r = (a.extractLsb' 16 16 + b.extractLsb' 16 16) ++ (a.extractLsb' 0 16 + b.extractLsb' 0 16)) ∧
    Gives (.qadd16 (a.extractLsb' 0 16 ++ a.extractLsb' 16 16) (b.extractLsb' 0 16 ++ b.extractLsb' 16 16))
      (r.extractLsb' 0 16 ++ r.extractLsb' 16 16, f)) ∧
  (∀ a : Word, Gives (.qadd16 a 0) (a, false) ∧ Gives (.qadd16 0 a) (a, false)) ∧
  (∀ (a b : Word) (h h' : Lane), ∃ r f r' f', Gives (.qadd16 a b) (r, f) ∧
    Gives (.qadd16 (h ++ a.extractLsb' 0 16) (h' ++ b.extractLsb' 0 16)) (r', f') ∧
    r.extractLsb' 0 16 = r'.extractLsb' 0 16) ∧
  (∀ (a b : Word) (l l' : Lane), ∃ r f r' f', Gives (.qadd16 a b) (r, f) ∧
    Gives (.qadd16 (a.extractLsb' 16 16 ++ l) (b.extractLsb' 16 16 ++ l')) (r', f') ∧
    r.extractLsb' 16 16 = r'.extractLsb' 16 16) ∧
  (∃ f g h k, Gives (.qadd16 0x00007FFF 0x00000001) (0x00007FFF, f) ∧
    Gives (.qadd16 0x00007FFF 0x0000FFFF) (0x00007FFE, g) ∧
    Gives (.qadd16 0x00000001 0x0000FFFF) (0x00000000, h) ∧
    Gives (.qadd16 0x00007FFF 0x00000000) (0x00007FFF, k))

/-- R56: a lane is a wrapping 16-bit adder with a comparison of signs. -/
def Obligations.LaneIsAWrappingAdderWithSignTest : Prop :=
  ∀ u v : Lane,
    let s : Lane := BitVec.ofNat 16 ((u.toNat + v.toNat) % 2 ^ 16)
    let ovf : Bool := u.getLsbD 15 == v.getLsbD 15 && s.getLsbD 15 != u.getLsbD 15
    qadd16Lane u v = (if ovf = false then s else if u.getLsbD 15 = false then 0x7FFF else 0x8000, ovf)

/-- R57: where neither operation saturates, the two results agree exactly when the low halves produce no carry; neither
result is a masking of the other; the rule's four examples. -/
def Obligations.ScalarAndPackedAgreeWithoutALowCarry : Prop :=
  (∀ a b : Word, ∃ r f r' f', Gives (.qadd a b) (r, f) ∧ Gives (.qadd16 a b) (r', f') ∧
    (f = false → f' = false →
      (r = r' ↔ (a.extractLsb' 0 16).toNat + (b.extractLsb' 0 16).toNat < 65536))) ∧
  (∀ m : Word, ∃ a b r f r' f', Gives (.qadd a b) (r, f) ∧ Gives (.qadd16 a b) (r', f') ∧ r' ≠ r &&& m) ∧
  (∀ m : Word, ∃ a b r f r' f', Gives (.qadd a b) (r, f) ∧ Gives (.qadd16 a b) (r', f') ∧ r ≠ r' &&& m) ∧
  Gives (.qadd 0x7FFFFFFF 0x7FFFFFFF) (0x7FFFFFFF, true) ∧ Gives (.qadd16 0x7FFFFFFF 0x7FFFFFFF) (0x7FFFFFFE, true) ∧
  Gives (.qadd 0x0000FFFF 0x00000001) (0x00010000, false) ∧ Gives (.qadd16 0x0000FFFF 0x00000001) (0x00000000, false) ∧
  Gives (.qadd 0x80000001 0xFFFFFFFF) (0x80000000, false) ∧ Gives (.qadd16 0x80000001 0xFFFFFFFF) (0x80000000, true) ∧
  Gives (.qadd 0x12345678 0x11111111) (0x23456789, false) ∧ Gives (.qadd16 0x12345678 0x11111111) (0x23456789, false)

/-- R39: overflow to the top needs two positive operands, overflow to the bottom two negative ones, in `QADD` and in
each lane of `QADD16`; so operands of opposite sign, or one of them zero, never saturate. -/
def Obligations.OverflowNeedsOperandsOfOneSign : Prop :=
  (∀ a b : Word, ∃ r f, Gives (.qadd a b) (r, f) ∧
    (f = true → (0 < a.toInt ∧ 0 < b.toInt ∧ r = 0x7FFFFFFF) ∨ (a.toInt < 0 ∧ b.toInt < 0 ∧ r = 0x80000000)) ∧
    (f = true ↔ 2147483647 < a.toInt + b.toInt ∨ a.toInt + b.toInt < -2147483648)) ∧
  (∀ u v : Lane, ((qadd16Lane u v).2 = true ↔ 32767 < u.toInt + v.toInt ∨ u.toInt + v.toInt < -32768) ∧
    ((qadd16Lane u v).2 = true →
      (0 < u.toInt ∧ 0 < v.toInt ∧ (qadd16Lane u v).1 = 0x7FFF) ∨
      (u.toInt < 0 ∧ v.toInt < 0 ∧ (qadd16Lane u v).1 = 0x8000)))

/-- R68: two lanes that saturate together, in the same or in opposite directions, are each clamped on their own. -/
def Obligations.LanesThatSaturateTogetherKeepTheirOwnDirection : Prop :=
  ∀ a b : Word,
    OutOfRange 16 ((a.extractLsb' 0 16).toInt + (b.extractLsb' 0 16).toInt) →
    OutOfRange 16 ((a.extractLsb' 16 16).toInt + (b.extractLsb' 16 16).toInt) →
    Gives (.qadd16 a b)
      ((if (a.extractLsb' 16 16).toInt < 0 then 0x8000#16 else 0x7FFF#16) ++
        (if (a.extractLsb' 0 16).toInt < 0 then 0x8000#16 else 0x7FFF#16), true)

/-! ### The block, its requests and its steps -/

/-- An operation's outputs are a function of its request alone; the output ports, and what an evaluation takes from them,
are a function of the input ports alone (R10); nothing else of the state changes. That a step is one evaluation, which
takes the outcome into `taken` and holds the inputs, is the MODEL's choice (log 1, log 2, log 5). -/
def Obligations.OutputsDependOnTheInputsAlone : Prop :=
  (∀ i : Instr, ∃ out, Gives i out) ∧
  (∀ s s' : State, s.op = s'.op → s.a = s'.a → s.b = s'.b →
    s.outputs = s'.outputs ∧
      ∃ out, step s = .next { s with taken := out } ∧ step s' = .next { s' with taken := out })

/-- `sat` is 1 exactly when clamping occurred in the evaluation of the request on the input ports, whatever was taken before
(R13). That a step is one evaluation, which takes `(result, sat)` into `taken` and holds the inputs, is the MODEL's
choice (log 1, log 2, log 5). -/
def Obligations.SatTellsClampingInThisEvaluation : Prop :=
  ∀ s : State, step s = .next { s with taken := (s.result, s.sat) } ∧
    (s.sat = true ↔
      (s.op = 0 ∧ OutOfRange 32 (s.a.toInt + s.b.toInt)) ∨
      (s.op = 1 ∧
        (OutOfRange 16 ((s.a.extractLsb' 0 16).toInt + (s.b.extractLsb' 0 16).toInt) ∨
         OutOfRange 16 ((s.a.extractLsb' 16 16).toInt + (s.b.extractLsb' 16 16).toInt))))

/-- The output ports carry `sau` of the input ports, which is the selected sub-block's function, with the corner case and
the worked example (R58). That a step is one evaluation, which takes them into `taken`, is the MODEL's choice (log 1,
log 2). -/
def Obligations.StepDrivesTheSelectedSubBlock : Prop :=
  (∀ s : State, (s.result, s.sat) = sau s.op s.a s.b ∧ step s = .next { s with taken := sau s.op s.a s.b }) ∧
  (∀ a b : Word, sau 0 a b = saturatingAdder32 a b ∧ Gives (.qadd a b) (sau 0 a b)) ∧
  (∀ a b : Word, sau 1 a b = saturatingAdder16PackedDual a b ∧ Gives (.qadd16 a b) (sau 1 a b)) ∧
  sau 0 0x80000001 0xFFFFFFFF = (0x80000000, false) ∧
  (saturatingAdder16PackedDual 0x80000001 0xFFFFFFFF).2 = true ∧
  sau 1 0x00007FFF 0x00000001 = (0x00007FFF, true)

/-- A step runs the operation on the input ports and adds nothing around it (R33, R58; that a step is one evaluation is
the model's choice, log 2). -/
def Obligations.StepRunsTheRequestOnThePorts : Prop :=
  ∀ (s : State) (i : Instr), decode { op := s.op, a := s.a, b := s.b } = i → step s = exec i s

/-- The host's placing of an instruction makes the very next step run it, and the output ports show at once what it gives
(R18, R58). The MODEL's choices: that a step is one evaluation (log 2); that `State.withFetchWord` stands for the
caller's presenting a request (log 4); how a selector word is placed, and that a refused one leaves the ports alone
(log 6); that what was taken before stays in `taken` (log 1). -/
def Obligations.PlacedWordIsTheOneThatRuns : Prop :=
  ∀ (s : State) (nbits w : Nat),
    (∀ i : Instr, decodeTableWord nbits w = some i →
      step (s.withFetchWord nbits w) = exec i (s.withFetchWord nbits w) ∧
      Gives i (s.withFetchWord nbits w).outputs ∧
      (s.withFetchWord nbits w).taken = s.taken) ∧
    (decodeTableWord nbits w = none → s.withFetchWord nbits w = s)

/-- R28: the selector values, as match and mask over the 1-bit selector. -/
def Obligations.SelectorZeroIsQaddAndOneIsQaddSixteen : Prop :=
  ∀ a b : Word,
    encode (.qadd a b) = { op := 0, a := a, b := b } ∧ encode (.qadd16 a b) = { op := 1, a := a, b := b } ∧
    (∀ op : Selector, op &&& 0x1 = 0x0 → decode { op := op, a := a, b := b } = .qadd a b) ∧
    (∀ op : Selector, op &&& 0x1 = 0x1 → decode { op := op, a := a, b := b } = .qadd16 a b) ∧
    (Instr.qadd a b).mnemonic = "QADD" ∧ (Instr.qadd16 a b).mnemonic = "QADD16"

/-- A few words written out from R28 decode to what they stand for, and of the numbers the host may write as a selector
word, 0 and 1 alone decode, whatever the width (R30). The zero operands, and that a word of no bits is refused, are
the MODEL's choice (log 6). -/
def Obligations.TableWordsDecodeAsWritten : Prop :=
  decodeTableWord 8 0b00000000 = some (.qadd 0 0) ∧
  decodeTableWord 8 0b00000001 = some (.qadd16 0 0) ∧
  decodeTableWord 8 0b00000010 = none ∧ decodeTableWord 8 0b00000011 = none ∧
  (∀ (nbits w : Nat) (i : Instr), decodeTableWord nbits w = some i ↔
    nbits ≠ 0 ∧ (w = 0 ∧ i = .qadd 0 0 ∨ w = 1 ∧ i = .qadd16 0 0)) ∧
  decode { op := 0, a := 0x7FFFFFFF, b := 0x00000001 } = .qadd 0x7FFFFFFF 0x00000001 ∧
  decode { op := 1, a := 0xDEADBEEF, b := 0xCAFEBABE } = .qadd16 0xDEADBEEF 0xCAFEBABE

/-- Decode and encode agree, at every value of every field: each of the `2^65` triples of the ports is one operation and
each operation one triple (R19, R27, R28, R33), and a selector outside R28 is refused by name (R30). The MODEL's choices
(log 10): requests written with plain numbers, the refusal by name of an operand of 2^32 or more, and the order of
the refusals, the selector's first, then that of `a`, then that of `b`. -/
def Obligations.RequestsAndPortTriplesCorrespond : Prop :=
  (∀ i : Instr, decode (encode i) = i ∧ decodeRaw (encodeRaw i) = .ok i ∧ (encodeRaw i).wellFormed = true) ∧
  (∀ r : Request, encode (decode r) = r) ∧
  (∀ r : RawRequest, r.wellFormed = true → ∃ i, decodeRaw r = .ok i ∧ encodeRaw i = r) ∧
  (∀ r : RawRequest, 2 ≤ r.sel → decodeRaw r = .error (.selectorNotEncoded r.sel)) ∧
  (∀ r : RawRequest, r.sel < 2 → 4294967296 ≤ r.a → decodeRaw r = .error (.operandNotAWord r.a)) ∧
  (∀ r : RawRequest, r.sel < 2 → r.a < 4294967296 → 4294967296 ≤ r.b →
    decodeRaw r = .error (.operandNotAWord r.b))

/-- Every triple on the ports has a defined outcome (R19), there is no fault at all (R66), and no operation and no step is
refused (R73). That a step is one evaluation, that the caller presents the triple by `State.present`, and that the
inputs are held, is the MODEL's choice (log 2, log 4, log 5). -/
def Obligations.EveryRequestCompletes : Prop :=
  (∀ (s : State) (r : Request), ∃ out : Word × Bool,
    step (s.present r) = .next { op := r.op, a := r.a, b := r.b, taken := out }) ∧
  (∀ (i : Instr) (s : State), (∀ φ, exec i s ≠ .fault φ) ∧ (∀ ρ, exec i s ≠ .refused ρ)) ∧
  (∀ s : State, (∀ φ, step s ≠ .fault φ) ∧ (∀ ρ, step s ≠ .refused ρ)) ∧
  (∀ _ : Fault, False)

/-- Evaluating the same input twice gives the same output twice (R23). That a step is one evaluation, which takes the outcome
into `taken` and holds the inputs, is the MODEL's choice (log 1, log 2, log 5). -/
def Obligations.SecondEvaluationChangesNothing : Prop :=
  ∀ s : State, ∃ t, step s = .next t ∧ step t = .next t ∧ t.op = s.op ∧ t.a = s.a ∧ t.b = s.b

/-- A list of evaluations gives, request by request, what each gives alone, from whatever state it starts; so any reordering
gives the same outputs to the same requests and the same OR of the indicators (R25, R76). That a step is one evaluation
whose outcome is taken, and that the caller presents the requests one by one, is the MODEL's choice (log 1, log 2,
log 4). -/
def Obligations.EvaluationsMayBeReordered : Prop :=
  (∀ (rs : List Request) (s : State), serve rs s = rs.map (fun r => sau r.op r.a r.b)) ∧
  (∀ rs rs' : List Request, rs.Perm rs' → ∀ s s' : State,
    (rs.zip (serve rs s)).Perm (rs'.zip (serve rs' s')) ∧
    (serve rs s).any (fun out => out.2) = (serve rs' s').any (fun out => out.2))

/-- Refinement (R46, R56, R58): from every state a step is what wrapping adders with sign tests give, one of 32 bits or
two of 16 with no carry between them. That a step is one evaluation, which takes the outcome into `taken` and holds the
inputs, is the MODEL's choice (log 1, log 2, log 5). -/
def Obligations.StepIsTheBitLevelBlock : Prop :=
  ∀ s : State,
    let adder {k : Nat} (top bottom u v : BitVec k) : BitVec k × Bool :=
      let ovf : Bool := u.msb == v.msb && (u + v).msb != u.msb
      (if ovf = false then u + v else if u.msb = false then top else bottom, ovf)
    let one := adder 0x7FFFFFFF 0x80000000 s.a s.b
    let lo := adder (0x7FFF : BitVec 16) 0x8000 (s.a.extractLsb' 0 16) (s.b.extractLsb' 0 16)
    let hi := adder (0x7FFF : BitVec 16) 0x8000 (s.a.extractLsb' 16 16) (s.b.extractLsb' 16 16)
    step s = .next
      { s with
        taken := (if s.op = 0 then one.1 else hi.1 ++ lo.1, if s.op = 0 then one.2 else lo.2 || hi.2) }

/-- What a step takes are the clamped exact sums of the request on the input ports (R36, R40, R48), `result` and `sat` of one
triple (R77): so `Settled` is an invariant, one step from any state reaches it, and a settled state steps to itself. The
invariant is the MODEL's: that a step is one evaluation, which takes the outcome into `taken` and holds the inputs, is
its choice (log 1, log 2, log 5). -/
def Obligations.EveryStepSettlesThePorts : Prop :=
  (∀ s : State, ∃ t, step s = .next t ∧ Settled t) ∧
  (∀ s t : State, Settled s → step s = .next t → Settled t ∧ t = s)

/-- The reset state is settled (R18), with the inputs the MODEL chooses and the outcome they have (log 3). -/
def Obligations.ResetPortsAreSettled : Prop :=
  Settled State.reset ∧ State.reset = { op := 0, a := 0, b := 0, taken := (0, false) } ∧
  State.reset.taken = State.reset.outputs ∧ State.reset.outputs = sau State.reset.op State.reset.a State.reset.b

/-- R31: the written form of a request and its outcome, on the rule's example. -/
def Obligations.WrittenFormOfTheExample : Prop :=
  (Instr.qadd 0x7FFFFFFF 0x7FFFFFFF).outcomeText 0x7FFFFFFF true =
    "QADD 0x7FFFFFFF, 0x7FFFFFFF -> (0x7FFFFFFF, 1)" ∧
  Gives (.qadd 0x7FFFFFFF 0x7FFFFFFF) (0x7FFFFFFF, true)

/-- R18, R74, R77: at any time, in every state, the output ports show the right outcome for the request on the input ports;
they follow a newly presented request at once, before any evaluation, and nothing taken earlier is stored in them. That the caller presents a request by `State.present`,
and the field `taken`, are the MODEL's choice (log 1, log 4). -/
def Obligations.OutputPortsFollowTheInputPorts : Prop :=
  (∀ s : State, RightOutcome s.op s.a s.b (s.result, s.sat)) ∧
  (∀ (s : State) (r : Request), (s.present r).outputs = sau r.op r.a r.b ∧ Gives (decode r) (s.present r).outputs) ∧
  (∀ (s : State) (out : Word × Bool), ({ s with taken := out } : State).outputs = s.outputs)

/-- The step function of the block has one outcome (R73), the value of R58, with nothing of a fault or a refusal in its type,
and under the host's interface every operation and every step is that outcome. The shape of the state is the MODEL's
choice (log 1, log 2). -/
def Obligations.StepHasTheOneOutcomeOfTheBlock : Prop :=
  (∀ (i : Instr) (s : State), exec i s = .next (run i s)) ∧
  (∀ s : State, step s = .next (evaluate s)) ∧
  (∀ s : State, evaluate s = { s with taken := sau s.op s.a s.b })

/-- R65: the six properties the source's test suite "must pin down". -/
def Obligations.SourcesSixPropertiesHold : Prop :=
  IdempotentBoundary ∧ SymmetricSaturation ∧ NoFalsePositives ∧ PackedLaneIndependence ∧ ReferenceTestOne ∧
  ReferenceTestTwo
end

