-- ==== Sys2Proof/Config.lean ====
section
/-! DEFINITION. What the spec leaves to an implementation. The widths are no parameters (spec/00_scope.md R4) and
the width of the intermediate sum is unobservable, so the model takes no argument for it (R5, R38). What is
left is the propagation delay (spec/70_reset_and_hazards.md R80, spec/92_eei_decisions.md D14). -/

namespace Sys2Proof

/-- `T_pd`, the propagation delay of a physical instance: an open parameter "that no rule reads" (R80).
DESIGN CHOICE: a natural number, in a unit the spec does not give. Safe: nothing is known of its value and
no definition of the model uses it (log 7). -/
opaque Config.propagationDelay : Nat

end Sys2Proof
end

