-- ==== Sys2Proof/Laws/Operands.lean ====
section
/-! SUPPORT. The readings of the ports, in Lean's own terms. -/

namespace Sys2Proof.Machine

/-- The spec's two's-complement reading is Lean's. -/
theorem sint_eq_toInt {k : Nat} (v : BitVec k) : sint v = v.toInt := by
  unfold sint
  rw [BitVec.toInt_eq_msb_cond]
  split <;> simp

/-- The exact sum, in Lean's readings. -/
theorem exactSum_eq {k : Nat} (u v : BitVec k) : exactSum u v = u.toInt + v.toInt := by
  simp [exactSum, sint_eq_toInt]

theorem maxOf_w16 : maxOf .w16 = 32767 := by decide
theorem minOf_w16 : minOf .w16 = -32768 := by decide
theorem maxOf_w32 : maxOf .w32 = 2147483647 := by decide
theorem minOf_w32 : minOf .w32 = -2147483648 := by decide

/-- A 32-bit reading is in the 32-bit range. -/
theorem word_toInt_range (v : Word) : -2147483648 ≤ v.toInt ∧ v.toInt ≤ 2147483647 := by
  have hlo := BitVec.le_toInt v
  have hhi := BitVec.toInt_lt (x := v)
  omega

/-- A lane's reading is in the 16-bit range. -/
theorem lane_toInt_range (v : Lane) : -32768 ≤ v.toInt ∧ v.toInt ≤ 32767 := by
  have hlo := BitVec.le_toInt v
  have hhi := BitVec.toInt_lt (x := v)
  omega

/-- An integer of the 32-bit range survives being put into a word. -/
theorem toInt_bits_word {n : Int} (hlo : -2147483648 ≤ n) (hhi : n ≤ 2147483647) : (bits 32 n).toInt = n := by
  rw [bits, BitVec.toInt_ofInt]
  exact Int.bmod_eq_of_le (by omega) (by omega)

/-- An integer of the 16-bit range survives being put into a lane. -/
theorem toInt_bits_lane {n : Int} (hlo : -32768 ≤ n) (hhi : n ≤ 32767) : (bits 16 n).toInt = n := by
  rw [bits, BitVec.toInt_ofInt]
  exact Int.bmod_eq_of_le (by omega) (by omega)

/-- Bit `i` of a PackedPair. -/
theorem packLanes_getLsbD (hi lo : Lane) (i : Nat) :
    (packLanes hi lo).getLsbD i = if i < 16 then lo.getLsbD i else hi.getLsbD (i - 16) :=
  BitVec.getLsbD_append

/-- The low lane of two lanes put together. -/
theorem loLane_pack (hi lo : Lane) : (packLanes hi lo).extractLsb' 0 16 = lo := by
  apply BitVec.eq_of_getLsbD_eq
  intro i h
  simp only [BitVec.getLsbD_extractLsb', packLanes_getLsbD, Nat.zero_add, h, decide_true, Bool.true_and, if_true]

/-- The high lane of two lanes put together. -/
theorem hiLane_pack (hi lo : Lane) : (packLanes hi lo).extractLsb' 16 16 = hi := by
  apply BitVec.eq_of_getLsbD_eq
  intro i h
  have h16 : ¬ 16 + i < 16 := by omega
  simp only [BitVec.getLsbD_extractLsb', packLanes_getLsbD, h, h16, decide_true, Bool.true_and, if_false,
    Nat.add_sub_cancel_left]

/-- A word is its own lanes put together. -/
theorem pack_lanes (v : Word) : packLanes (v.extractLsb' 16 16) (v.extractLsb' 0 16) = v := by
  apply BitVec.eq_of_getLsbD_eq
  intro i h
  simp only [packLanes_getLsbD, BitVec.getLsbD_extractLsb', Nat.zero_add]
  by_cases hlow : i < 16
  · simp only [hlow, decide_true, Bool.true_and, if_true]
  · have h16 : i - 16 < 16 := by omega
    have hi : 16 + (i - 16) = i := by omega
    simp only [hlow, if_false, h16, decide_true, Bool.true_and, hi]

end Sys2Proof.Machine
end

