-- ==== Sys2Proof/Laws/Saturate.lean ====
section
/-! SUPPORT. What the saturation primitive can answer, said once. -/

namespace Sys2Proof.Machine

theorem minOf_lt_maxOf (w : Width) : minOf w < maxOf w := by
  cases w <;> decide

/-- The three answers of `saturate`, each with its guard. -/
theorem saturate_cases (x : Int) (w : Width) :
    (maxOf w < x ∧ saturate x w = (maxOf w, true)) ∨
    (x < minOf w ∧ saturate x w = (minOf w, true)) ∨
    (minOf w ≤ x ∧ x ≤ maxOf w ∧ saturate x w = (x, false)) := by
  unfold saturate
  split
  · exact .inl ⟨‹_›, rfl⟩
  · split
    · exact .inr (.inl ⟨‹_›, rfl⟩)
    · exact .inr (.inr ⟨by omega, by omega, rfl⟩)

end Sys2Proof.Machine
end

