-- ==== Sys2Proof/Laws/Adders.lean ====
section
/-! SUPPORT. What the two sub-blocks and the lane function can answer, said once. -/

namespace Sys2Proof.Machine

/-- The three answers of the scalar adder, each with the sum that gives it. -/
theorem scalar_cases (a b : Word) :
    (2147483647 < a.toInt + b.toInt ∧ saturatingAdder32 a b = (0x7FFFFFFF, true)) ∨
    (a.toInt + b.toInt < -2147483648 ∧ saturatingAdder32 a b = (0x80000000, true)) ∨
    (-2147483648 ≤ a.toInt + b.toInt ∧ a.toInt + b.toInt ≤ 2147483647 ∧
      saturatingAdder32 a b = (bits 32 (a.toInt + b.toInt), false)) := by
  have h := saturate_cases (exactSum a b) .w32
  simp only [maxOf_w32, minOf_w32, exactSum_eq] at h
  rcases h with ⟨hx, h⟩ | ⟨hx, h⟩ | ⟨hlo, hhi, h⟩
  · exact .inl ⟨hx, by simp [saturatingAdder32, exactSum_eq, h, bits]⟩
  · exact .inr (.inl ⟨hx, by simp [saturatingAdder32, exactSum_eq, h, bits]⟩)
  · exact .inr (.inr ⟨hlo, hhi, by simp [saturatingAdder32, exactSum_eq, h]⟩)

/-- The three answers of one lane, each with the sum that gives it. -/
theorem lane_cases (u v : Lane) :
    (32767 < u.toInt + v.toInt ∧ qadd16Lane u v = (0x7FFF, true)) ∨
    (u.toInt + v.toInt < -32768 ∧ qadd16Lane u v = (0x8000, true)) ∨
    (-32768 ≤ u.toInt + v.toInt ∧ u.toInt + v.toInt ≤ 32767 ∧
      qadd16Lane u v = (bits 16 (u.toInt + v.toInt), false)) := by
  have h := saturate_cases (exactSum u v) .w16
  simp only [maxOf_w16, minOf_w16, exactSum_eq] at h
  rcases h with ⟨hx, h⟩ | ⟨hx, h⟩ | ⟨hlo, hhi, h⟩
  · exact .inl ⟨hx, by simp [qadd16Lane, exactSum_eq, h, bits]⟩
  · exact .inr (.inl ⟨hx, by simp [qadd16Lane, exactSum_eq, h, bits]⟩)
  · exact .inr (.inr ⟨hlo, hhi, by simp [qadd16Lane, exactSum_eq, h]⟩)

/-- The packed adder is two lane functions side by side. -/
theorem packed_eq (a b : Word) :
    saturatingAdder16PackedDual a b =
      (packLanes (qadd16Lane (a.extractLsb' 16 16) (b.extractLsb' 16 16)).1
          (qadd16Lane (a.extractLsb' 0 16) (b.extractLsb' 0 16)).1,
        (qadd16Lane (a.extractLsb' 0 16) (b.extractLsb' 0 16)).2 ||
          (qadd16Lane (a.extractLsb' 16 16) (b.extractLsb' 16 16)).2) := rfl

end Sys2Proof.Machine
end

