-- ==== Sys2Proof/Laws/PerInstr.lean ====
section
/-! SUPPORT. The family `TableRow`: the request that stands for an operation carries that operation's row of
spec/opcode_table.json, its match under its mask and its mnemonic, and no other row's (spec/30_encoding.md R28). -/

namespace Sys2Proof

/-- "Every operand value is legal for both operations" (R30). -/
@[simp] theorem Instr.wellFormed_eq_true (i : Instr) : i.wellFormed = true := by
  cases i <;> rfl

end Sys2Proof

namespace Sys2Proof.Laws.TableRow

/-- The rows of the table: mnemonic, match, mask. -/
def rows : List (String × Selector × Selector) := [("QADD", 0x0, 0x1), ("QADD16", 0x1, 0x1)]

/-- Exactly one row matches the selector of the encoding, the one with the operation's mnemonic. -/
def Statement (i : Instr) : Prop :=
  (rows.filter (fun row => (encode i).op &&& row.2.2 == row.2.1)).map (fun row => row.1) = [i.mnemonic]

theorem qadd (a b : Word) : Statement (.qadd a b) := by
  simp [Statement, rows, encode, Instr.mnemonic]

theorem qadd16 (a b : Word) : Statement (.qadd16 a b) := by
  simp [Statement, rows, encode, Instr.mnemonic]

end Sys2Proof.Laws.TableRow
end

