-- ==== Sys2Proof/Laws/State.lean ====
section
/-! SUPPORT. What each operation over the ports leaves in each port. -/

namespace Sys2Proof.Machine

@[simp] theorem present_op (s : State) (r : Request) : (s.present r).op = r.op := rfl
@[simp] theorem present_a (s : State) (r : Request) : (s.present r).a = r.a := rfl
@[simp] theorem present_b (s : State) (r : Request) : (s.present r).b = r.b := rfl
@[simp] theorem present_taken (s : State) (r : Request) : (s.present r).taken = s.taken := rfl

@[simp] theorem take_op (s : State) (out : Word × Bool) : (s.take out).op = s.op := rfl
@[simp] theorem take_a (s : State) (out : Word × Bool) : (s.take out).a = s.a := rfl
@[simp] theorem take_b (s : State) (out : Word × Bool) : (s.take out).b = s.b := rfl
@[simp] theorem take_taken (s : State) (out : Word × Bool) : (s.take out).taken = out := rfl

@[simp] theorem request_op (s : State) : s.request.op = s.op := rfl
@[simp] theorem request_a (s : State) : s.request.a = s.a := rfl
@[simp] theorem request_b (s : State) : s.request.b = s.b := rfl

@[simp] theorem outputs_fst (s : State) : s.outputs.1 = s.result := rfl
@[simp] theorem outputs_snd (s : State) : s.outputs.2 = s.sat := rfl

/-- The input ports show what was presented. -/
@[simp] theorem request_present (s : State) (r : Request) : (s.present r).request = r := rfl

/-- The output ports follow what was presented, whatever was taken before. -/
@[simp] theorem outputs_present (s : State) (r : Request) : (s.present r).outputs = sau r.op r.a r.b := rfl

/-- Taking an outcome moves no input port. -/
@[simp] theorem request_take (s : State) (out : Word × Bool) : (s.take out).request = s.request := rfl

/-- Taking an outcome moves no output port. -/
@[simp] theorem outputs_take (s : State) (out : Word × Bool) : (s.take out).outputs = s.outputs := rfl

/-- What was taken last is the second of two outcomes. -/
@[simp] theorem take_take (s : State) (o o' : Word × Bool) : (s.take o).take o' = s.take o' := rfl

/-- An operation's evaluation takes what the ports would carry if its request were on them. -/
theorem run_decode (r : Request) (s : State) : run (decode r) s = s.take (sau r.op r.a r.b) := by
  unfold decode sau
  split <;> rfl

/-- An evaluation takes what the output ports carry. -/
theorem evaluate_eq (s : State) : evaluate s = s.take s.outputs := run_decode s.request s

@[simp] theorem evaluate_op (s : State) : (evaluate s).op = s.op := by rw [evaluate_eq, take_op]
@[simp] theorem evaluate_a (s : State) : (evaluate s).a = s.a := by rw [evaluate_eq, take_a]
@[simp] theorem evaluate_b (s : State) : (evaluate s).b = s.b := by rw [evaluate_eq, take_b]
@[simp] theorem evaluate_taken (s : State) : (evaluate s).taken = s.outputs := by rw [evaluate_eq, take_taken]

end Sys2Proof.Machine
end

