-- ==== Sys2Proof/Laws/Step.lean ====
section
/-! SUPPORT. What `exec` and `step` answer: always a next state, with the outcome taken and nothing else changed. -/

namespace Sys2Proof.Machine

@[simp] theorem exec_qadd (a b : Word) (s : State) :
    exec (.qadd a b) s = .next (s.take (saturatingAdder32 a b)) := rfl

@[simp] theorem exec_qadd16 (a b : Word) (s : State) :
    exec (.qadd16 a b) s = .next (s.take (saturatingAdder16PackedDual a b)) := rfl

/-- `exec` answers the evaluation of its operation, and nothing else (R73). -/
theorem exec_eq_run (i : Instr) (s : State) : exec i s = .next (run i s) := by
  cases i <;> rfl

/-- The operation the request `r` stands for gives `sau` of `r`. -/
theorem exec_decode (r : Request) (s : State) : exec (decode r) s = .next (s.take (sau r.op r.a r.b)) := by
  rw [exec_eq_run, run_decode]

/-- A step takes what the output ports carry. -/
theorem step_eq (s : State) : step s = .next (s.take s.outputs) := by
  rw [step, evaluate_eq]

/-- The 1-bit selector has two values. -/
theorem selector_cases (op : Selector) : op = 0 ∨ op = 1 := by
  revert op
  decide

/-- An operation gives one outcome only. -/
theorem gives_unique {i : Instr} {o o' : Word × Bool} (h : Gives i o) (h' : Gives i o') : o = o' := by
  have e := (h State.reset).symm.trans (h' State.reset)
  simpa only [Host.Outcome.next.injEq, State.mk.injEq, true_and] using e

/-- What the caller takes from the first of a list of requests, and what is left to serve. -/
theorem serve_cons (r : Request) (rs : List Request) (s : State) :
    serve (r :: rs) s = sau r.op r.a r.b :: serve rs ((s.present r).take (sau r.op r.a r.b)) := by
  simp only [serve, step_eq, outputs_present, take_taken]

end Sys2Proof.Machine
end

