-- ==== Sys2Proof/Tests/Slice0.lean ====
section
/-! SUPPORT. The model's own tests, their expected results from spec/95_test_vectors.md and spec/30_encoding.md, and for
every statement with hypotheses a witness that meets them. -/

namespace Sys2Proof.Tests

open Sys2Proof.Machine

/-! ### Well-formedness: each check refuses a term that breaks it -/

theorem test_wellFormed_accepts_largest : (RawRequest.mk 1 0xFFFFFFFF 0xFFFFFFFF).wellFormed = true := by decide
theorem test_wellFormed_refuses_selector_two : (RawRequest.mk 2 0 0).wellFormed = false := by decide
theorem test_wellFormed_refuses_wide_operands :
    (RawRequest.mk 0 0x100000000 0).wellFormed = false ∧ (RawRequest.mk 0 0 0x100000000).wellFormed = false := by decide

/-! ### Decoding: the selector values of R28, the operands as they stand on their ports (R29) -/

theorem test_decode_qadd :
    decode { op := 0b0, a := 0x7FFFFFFF, b := 0x80000000 } = .qadd 0x7FFFFFFF 0x80000000 := by decide
theorem test_decode_qadd16 :
    decode { op := 0b1, a := 0x7FFF8000, b := 0x0001FFFF } = .qadd16 0x7FFF8000 0x0001FFFF := by decide
theorem test_decode_table_words :
    decodeTableWord 8 0b00000000 = some (.qadd 0 0) ∧ decodeTableWord 8 0b00000001 = some (.qadd16 0 0) := by decide
theorem test_decode_refuses_by_name :
    decodeRaw { sel := 2, a := 0, b := 0 } = .error (.selectorNotEncoded 2) ∧
    decodeRaw { sel := 1, a := 0, b := 0x100000000 } = .error (.operandNotAWord 0x100000000) := ⟨rfl, rfl⟩
/-- The reviewer's numbers: none is cut to its low bits. -/
theorem test_decode_cuts_no_bits :
    decodeTableWord 8 256 = none ∧ decodeTableWord 1 2 = none ∧ decodeTableWord 0 0 = none := by decide
theorem test_written_form : (Instr.qadd16 0xDEADBEEF 0xCAFEBABE).outcomeText 0xA9AB8000 true =
    "QADD16 0xDEADBEEF, 0xCAFEBABE -> (0xA9AB8000, 1)" := by decide

/-! ### The vectors of spec/95_test_vectors.md, each one step -/

/-- Presenting `(op, a, b)` after reset and making one evaluation leaves these ports. -/
def evaluates (op : Selector) (a b result : Word) (sat : Bool) : Bool :=
  match step (State.reset.present { op := op, a := a, b := b }) with
  | .next t => t == { op := op, a := a, b := b, taken := (result, sat) } && t.outputs == (result, sat)
  | .fault _ => false
  | .refused _ => false

/-- V-Q1 to V-Q25: `a`, `b`, `result`, `sat`. -/
def scalarVectors : List (Word × Word × Word × Bool) :=
  [(0x00000000, 0x00000000, 0x00000000, false), (0x7FFFFFFF, 0x00000000, 0x7FFFFFFF, false),
   (0x80000000, 0x00000000, 0x80000000, false), (0x12345678, 0x11111111, 0x23456789, false),
   (0x7FFFFFFE, 0x00000001, 0x7FFFFFFF, false), (0x80000001, 0xFFFFFFFF, 0x80000000, false),
   (0x7FFFFFFF, 0x80000000, 0xFFFFFFFF, false), (0xFFFFFFFF, 0xFFFFFFFF, 0xFFFFFFFE, false),
   (0xFFFFFFFF, 0x00000001, 0x00000000, false), (0x40000000, 0x3FFFFFFF, 0x7FFFFFFF, false),
   (0xC0000000, 0xC0000000, 0x80000000, false), (0x55555555, 0x2AAAAAAA, 0x7FFFFFFF, false)] ++
  [(0x7FFFFFFF, 0x00000001, 0x7FFFFFFF, true), (0x80000000, 0xFFFFFFFF, 0x80000000, true),
   (0x7FFFFFFF, 0x7FFFFFFF, 0x7FFFFFFF, true), (0x80000000, 0x80000000, 0x80000000, true),
   (0x40000000, 0x40000000, 0x7FFFFFFF, true), (0xC0000000, 0xBFFFFFFF, 0x80000000, true),
   (0x55555555, 0x2AAAAAAB, 0x7FFFFFFF, true), (0xAAAAAAAA, 0xD5555556, 0x80000000, false),
   (0xAAAAAAAA, 0xD5555555, 0x80000000, true), (0xDEADBEEF, 0xCAFEBABE, 0xA9AC79AD, false),
   (0x00007FFF, 0x00000001, 0x00008000, false), (0x0000FFFF, 0x00000001, 0x00010000, false),
   (0x7FFF7FFF, 0x7FFF7FFF, 0x7FFFFFFF, true)]

/-- The `QADD` requests of V-T5 and of the programs P1, P3 and P4, with the block outputs their tables give. -/
def scalarRequests : List (Word × Word × Word × Bool) :=
  [(0x00007FFF, 0x00007FFF, 0x0000FFFE, false), (0x40000000, 0x30000000, 0x70000000, false),
   (0x70000000, 0x30000000, 0x7FFFFFFF, true), (0x7FFFFFFF, 0xFFFFFFFF, 0x7FFFFFFE, false),
   (0x7FFFFFFE, 0x80000000, 0xFFFFFFFE, false), (0x00010002, 0x00030004, 0x00040006, false)]

/-- V-H1 to V-H26. -/
def packedVectors : List (Word × Word × Word × Bool) :=
  [(0x00000000, 0x00000000, 0x00000000, false), (0x7FFFFFFF, 0x7FFFFFFF, 0x7FFFFFFE, true),
   (0x7FFF7FFF, 0x7FFF7FFF, 0x7FFF7FFF, true), (0x80008000, 0x80008000, 0x80008000, true),
   (0x00007FFF, 0x00000001, 0x00007FFF, true), (0x7FFF0000, 0x00010000, 0x7FFF0000, true),
   (0x7FFF8000, 0x0001FFFF, 0x7FFF8000, true), (0x0000FFFF, 0x00000001, 0x00000000, false),
   (0x00018000, 0x0001FFFF, 0x00028000, true), (0x7FFE0001, 0x00017FFE, 0x7FFF7FFF, false),
   (0x80010001, 0xFFFFFFFF, 0x80000000, false), (0x80010001, 0xFFFEFFFE, 0x8000FFFF, true),
   (0xFFFFFFFF, 0xFFFFFFFF, 0xFFFEFFFE, false)] ++
  [(0x7FFF8000, 0x80007FFF, 0xFFFFFFFF, false), (0x12345678, 0x11111111, 0x23456789, false),
   (0xDEADBEEF, 0xCAFEBABE, 0xA9AB8000, true), (0x40004000, 0x40004000, 0x7FFF7FFF, true),
   (0x40004000, 0x3FFF3FFF, 0x7FFF7FFF, false), (0xC000C000, 0xC000C000, 0x80008000, false),
   (0xC000C000, 0xBFFFBFFF, 0x80008000, true), (0x00007FFF, 0x00007FFF, 0x00007FFF, true),
   (0x80000001, 0xFFFFFFFF, 0x80000000, true), (0x55555555, 0x2AAAAAAB, 0x7FFF0000, false),
   (0x7FFFFFFF, 0x00000000, 0x7FFFFFFF, false), (0x7FFFFFFF, 0x00000001, 0x7FFF0000, false),
   (0x00010001, 0x7FFF7FFF, 0x7FFF7FFF, true)]

/-- The `QADD16` requests of S8 and of the programs P2, P3 and P4, with the block outputs their tables give. -/
def packedRequests : List (Word × Word × Word × Bool) :=
  [(0x00000000, 0x0000FFFF, 0x0000FFFF, false), (0x7000F000, 0x20008000, 0x7FFF8000, true),
   (0x7FFF8000, 0xFFFF0001, 0x7FFE8001, false), (0x7FFFFFFE, 0x7FFFFFFF, 0x7FFFFFFD, true),
   (0x00010002, 0x00030004, 0x00040006, false), (0x00040006, 0xFFFCFFFA, 0x00000000, false)]

theorem test_qadd_vectors :
    (scalarVectors ++ scalarRequests).all (fun v => evaluates 0 v.1 v.2.1 v.2.2.1 v.2.2.2) = true := by decide

/-- S10: every row holds with the operands exchanged. -/
theorem test_qadd_vectors_exchanged :
    scalarVectors.all (fun v => evaluates 0 v.2.1 v.1 v.2.2.1 v.2.2.2) = true := by decide

theorem test_qadd16_vectors :
    (packedVectors ++ packedRequests).all (fun v => evaluates 1 v.1 v.2.1 v.2.2.1 v.2.2.2) = true := by decide

/-- R65 rows 5 and 6, by evaluation (S1, S6). -/
theorem test_reference_tests :
    sau 0 0x7FFFFFFF 0x7FFFFFFF = (0x7FFFFFFF, true) ∧ sau 1 0x7FFFFFFF 0x7FFFFFFF = (0x7FFFFFFE, true) := by decide

/-- V-P1 to V-P16. -/
theorem test_saturate_vectors :
    [(0, 0, false), (32767, 32767, false), (32768, 32767, true), (-32768, -32768, false), (-32769, -32768, true),
      (65534, 32767, true), (-65536, -32768, true), (40000, 32767, true)].all
      (fun v : Int × Int × Bool => saturate v.1 .w16 == (v.2.1, v.2.2)) = true ∧
    [(0, 0, false), (2147483647, 2147483647, false), (2147483648, 2147483647, true),
      (-2147483648, -2147483648, false), (-2147483649, -2147483648, true), (4294967294, 2147483647, true),
      (-4294967296, -2147483648, true), (40000, 40000, false)].all
      (fun v : Int × Int × Bool => saturate v.1 .w32 == (v.2.1, v.2.2)) = true := by decide

/-- A word placed after reset is what the next step runs, and what was taken before does not matter. -/
theorem test_placed_word_runs :
    step ({ State.reset with taken := (0xFFFFFFFF, true) }.withFetchWord 8 1) =
      .next { op := 1, a := 0, b := 0, taken := (0, false) } := rfl

/-- V-Q13 and V-H25 on the same operands: the output ports follow `op` with no evaluation between. -/
theorem test_outputs_follow_inputs :
    (State.reset.present { op := 0, a := 0x7FFFFFFF, b := 1 }).outputs = (0x7FFFFFFF, true) ∧
    ((State.reset.present { op := 0, a := 0x7FFFFFFF, b := 1 }).present
      { op := 1, a := 0x7FFFFFFF, b := 1 }).outputs = (0x7FFF0000, false) := by decide

/-! ### Witnesses: the hypotheses of each statement, met together, at the edges of their ranges -/

theorem witness_SignedReadingAndBitsAreInverse :
    0 < 1 ∧ (1#1).getLsbD (1 - 1) = true ∧ (0#1).getLsbD (1 - 1) = false ∧
    (-2 ^ (1 - 1) : Int) ≤ -1 ∧ (-1 : Int) ≤ 2 ^ (1 - 1) - 1 ∧
    (-2 ^ (32 - 1) : Int) ≤ 2147483647 ∧ (2147483647 : Int) ≤ 2 ^ (32 - 1) - 1 := by decide

theorem witness_LanesSitAtBits15To0And31To16 : 0 < 16 ∧ 15 < 16 := by decide

theorem witness_SaturateHasThreeCases :
    maxOf .w16 < 32768 ∧ -32769 < minOf .w16 ∧ minOf .w16 ≤ -32768 ∧ -32768 ≤ maxOf .w16 ∧
    minOf .w16 ≤ 32767 ∧ 32767 ≤ maxOf .w16 ∧
    maxOf .w32 < 2147483648 ∧ -2147483649 < minOf .w32 ∧ minOf .w32 ≤ 2147483647 ∧ 2147483647 ≤ maxOf .w32 := by decide

theorem witness_SaturateClampsToTheNearestInRange :
    (saturate 32767 .w16).2 = false ∧ (32768 : Int) ≤ 32768 ∧
    minOf .w16 ≤ 32766 ∧ 32766 ≤ maxOf .w16 ∧ 32766 ≠ (saturate 32768 .w16).1 := by decide

theorem witness_IntermediateOfOneMoreBitSuffices : 33 ≤ 33 ∧ 17 ≤ 17 := by decide

theorem witness_QaddReportsSaturationExactly :
    ¬ (-2147483648 ≤ (0x7FFFFFFF : Word).toInt + (1 : Word).toInt ∧
      (0x7FFFFFFF : Word).toInt + (1 : Word).toInt ≤ 2147483647) := by decide

theorem witness_QaddConsequencesHold :
    (saturatingAdder32 0x7FFFFFFE 0x00000001).2 = false ∧ (saturatingAdder32 0x7FFFFFFF 0x00000001).2 = true ∧
    (0x80000000 : Word).getLsbD 31 ≠ (0x7FFFFFFF : Word).getLsbD 31 ∧
    (0x80000000 : Word).toInt ≤ (0x7FFFFFFF : Word).toInt := by decide

theorem witness_QaddSixteenLanesAreIndependent :
    (0x00007FFF : Word).extractLsb' 0 16 = (0xFFFF7FFF : Word).extractLsb' 0 16 ∧
    (0x00000001 : Word).extractLsb' 0 16 = (0x80000001 : Word).extractLsb' 0 16 ∧
    (0x7FFF0000 : Word).extractLsb' 16 16 = (0x7FFFFFFF : Word).extractLsb' 16 16 ∧
    (0x00010000 : Word).extractLsb' 16 16 = (0x0001FFFF : Word).extractLsb' 16 16 := by decide

theorem witness_LaneFunctionObeysTheScalarLaws :
    (qadd16Lane 0x7FFE 0x0001).2 = false ∧ (qadd16Lane 0x7FFF 0x0001).2 = true ∧
    (0x8000 : Lane).getLsbD 15 ≠ (0x7FFF : Lane).getLsbD 15 ∧ (0x8000 : Lane).toInt ≤ (0x7FFF : Lane).toInt := by decide

theorem witness_QaddSixteenConsequencesHold : (saturatingAdder16PackedDual 0x7FFE0001 0x00017FFE).2 = false := by decide

/-- One pair whose low halves carry (`uint` sum 65536) and one whose low halves sum to 65535. -/
theorem witness_ScalarAndPackedAgreeWithoutALowCarry :
    (saturatingAdder32 0x0000FFFF 0x00000001).2 = false ∧ (saturatingAdder16PackedDual 0x0000FFFF 0x00000001).2 = false ∧
    (saturatingAdder32 0x0000FFFF 0x00000000).2 = false ∧ (saturatingAdder16PackedDual 0x0000FFFF 0x00000000).2 = false := by
  decide

theorem witness_OverflowNeedsOperandsOfOneSign :
    (saturatingAdder32 0x7FFFFFFF 0x00000001).2 = true ∧ (saturatingAdder32 0x80000000 0xFFFFFFFF).2 = true ∧
    (qadd16Lane 0x7FFF 0x0001).2 = true ∧ (qadd16Lane 0x8000 0xFFFF).2 = true := by decide

/-- V-H7: the lanes saturate in opposite directions, each by one. -/
theorem witness_LanesThatSaturateTogetherKeepTheirOwnDirection :
    OutOfRange 16 (((0x7FFF8000 : Word).extractLsb' 0 16).toInt + ((0x0001FFFF : Word).extractLsb' 0 16).toInt) ∧
    OutOfRange 16 (((0x7FFF8000 : Word).extractLsb' 16 16).toInt + ((0x0001FFFF : Word).extractLsb' 16 16).toInt) := by
  decide

/-- Two states that agree on the input ports and not on what was taken before. -/
theorem witness_OutputsDependOnTheInputsAlone :
    let s : State := { op := 1, a := 0x7FFF8000, b := 0x0001FFFF, taken := (0, false) }
    let s' : State := { op := 1, a := 0x7FFF8000, b := 0x0001FFFF, taken := (1, true) }
    s.op = s'.op ∧ s.a = s'.a ∧ s.b = s'.b ∧ s ≠ s' := by decide

theorem witness_StepRunsTheRequestOnThePorts :
    decode { op := State.reset.op, a := State.reset.a, b := State.reset.b } = .qadd 0 0 := by decide

theorem witness_PlacedWordIsTheOneThatRuns :
    decodeTableWord 8 1 = some (.qadd16 0 0) ∧ decodeTableWord 8 2 = none := by decide

theorem witness_SelectorZeroIsQaddAndOneIsQaddSixteen :
    (0 : Selector) &&& 0x1 = 0x0 ∧ (1 : Selector) &&& 0x1 = 0x1 := by decide

theorem witness_RequestsAndPortTriplesCorrespond :
    (RawRequest.mk 1 0xFFFFFFFF 0xFFFFFFFF).wellFormed = true ∧ 2 ≤ (RawRequest.mk 2 0 0).sel ∧
    ((RawRequest.mk 1 4294967296 0).sel < 2 ∧ 4294967296 ≤ (RawRequest.mk 1 4294967296 0).a) ∧
    ((RawRequest.mk 1 4294967295 4294967296).sel < 2 ∧ (RawRequest.mk 1 4294967295 4294967296).a < 4294967296 ∧
      4294967296 ≤ (RawRequest.mk 1 4294967295 4294967296).b) := by decide

theorem witness_EvaluationsMayBeReordered :
    [Request.mk 0 0x7FFFFFFF 1, Request.mk 1 0x0000FFFF 1].Perm [Request.mk 1 0x0000FFFF 1, Request.mk 0 0x7FFFFFFF 1] := by
  decide

/-- A settled state with a saturated packed outcome, and the step from it. -/
theorem witness_EveryStepSettlesThePorts :
    let s : State := { op := 1, a := 0xDEADBEEF, b := 0xCAFEBABE, taken := (0xA9AB8000, true) }
    Settled s ∧ step s = .next s := ⟨by decide, rfl⟩

/-- The row 3 hypothesis at both ends of the range. -/
theorem witness_SourcesSixPropertiesHold :
    ¬ OutOfRange 32 ((0x7FFFFFFE : Word).toInt + (0x00000001 : Word).toInt) ∧
    ¬ OutOfRange 32 ((0x80000001 : Word).toInt + (0xFFFFFFFF : Word).toInt) := by decide

end Sys2Proof.Tests
end

section
/-! The family of spec/00_scope.md: the range constants of R8. -/

namespace Sys2Proof.Machine

/-- Settles O2: the general clause is how `maxOf` and `minOf` are defined; the numerals are the laws of the operands, and each
bit pattern is the two's-complement word of its numeral. -/
theorem rangeConstantsAreTheSpecs : Obligations.RangeConstantsAreTheSpecs := by
  unfold Obligations.RangeConstantsAreTheSpecs
  refine ⟨fun _ => ⟨rfl, rfl⟩, maxOf_w32, ?_, minOf_w32, ?_, maxOf_w16, ?_, minOf_w16, ?_⟩
  · rw [maxOf_w32]; decide
  · rw [minOf_w32]; decide
  · rw [maxOf_w16]; decide
  · rw [minOf_w16]; decide

end Sys2Proof.Machine
end

section
/-! The family of spec/30_encoding.md: the two rows of R28, as match and mask. -/

namespace Sys2Proof

/-- The mask of both rows covers the whole 1-bit port (R28), so a row matches one selector only. -/
theorem selector_and_mask (op : Selector) : op &&& 0x1 = op := BitVec.and_allOnes

/-- Selector 0 is the row of `QADD` (R33). -/
theorem decode_op_zero (a b : Word) : decode { op := 0, a := a, b := b } = .qadd a b := rfl

/-- Selector 1 is the row of `QADD16` (R33). -/
theorem decode_op_one (a b : Word) : decode { op := 1, a := a, b := b } = .qadd16 a b := rfl

/-- Settles O32: under the mask a selector is itself, so a match fixes it, and the decoder reads the fixed selector; the
encodings and the mnemonics are how `encode` and `Instr.mnemonic` answer. -/
theorem selectorZeroIsQaddAndOneIsQaddSixteen : Obligations.SelectorZeroIsQaddAndOneIsQaddSixteen := by
  unfold Obligations.SelectorZeroIsQaddAndOneIsQaddSixteen
  intro a b
  refine ⟨rfl, rfl, fun op hmatch => ?_, fun op hmatch => ?_, rfl, rfl⟩
  · obtain rfl : op = 0 := (selector_and_mask op).symm.trans hmatch
    exact decode_op_zero a b
  · obtain rfl : op = 1 := (selector_and_mask op).symm.trans hmatch
    exact decode_op_one a b

end Sys2Proof
end

section
/-! The family of spec/40_saturation_primitive.md: the primitive as a clamp (R34, R36), and the range and the width of the exact
sum it is given (R37, R38). -/

namespace Sys2Proof.Machine

/-! ### The three cases (R34) -/

theorem saturate_of_maxOf_lt {x : Int} {w : Width} (h : maxOf w < x) : saturate x w = (maxOf w, true) :=
  if_pos h

theorem saturate_of_lt_minOf {x : Int} {w : Width} (h : x < minOf w) : saturate x w = (minOf w, true) := by
  have hx : ¬ x > maxOf w := by have := minOf_lt_maxOf w; omega
  rw [saturate, if_neg hx, if_pos h]

theorem saturate_of_mem {x : Int} {w : Width} (hlo : minOf w ≤ x) (hhi : x ≤ maxOf w) :
    saturate x w = (x, false) := by
  rw [saturate, if_neg hhi.not_gt, if_neg hlo.not_gt]

/-- The value is the exact integer cut to the range (R36). -/
theorem saturate_fst_eq_clamp (x : Int) (w : Width) :
    (saturate x w).1 = max (minOf w) (min (maxOf w) x) := by
  have hw := minOf_lt_maxOf w
  rcases saturate_cases x w with ⟨hx, e⟩ | ⟨hx, e⟩ | ⟨hlo, hhi, e⟩ <;> rw [e]
  · rw [min_eq_left hx.le, max_eq_right hw.le]
  · rw [min_eq_right (hx.trans hw).le, max_eq_left hx.le]
  · rw [min_eq_right hhi, max_eq_right hlo]

theorem minOf_le_saturate_fst (x : Int) (w : Width) : minOf w ≤ (saturate x w).1 := by
  rw [saturate_fst_eq_clamp]
  exact le_max_left _ _

theorem saturate_fst_le_maxOf (x : Int) (w : Width) : (saturate x w).1 ≤ maxOf w := by
  rw [saturate_fst_eq_clamp]
  exact max_le (minOf_lt_maxOf w).le (min_le_left _ _)

theorem zero_mem_range (w : Width) : minOf w ≤ 0 ∧ 0 ≤ maxOf w := by
  cases w <;> decide

/-- Settles O4: each corner case is one of the three cases, at a boundary or one past it. -/
theorem saturateHasThreeCases : Obligations.SaturateHasThreeCases := by
  unfold Obligations.SaturateHasThreeCases
  refine ⟨fun w => ?_, saturate_of_maxOf_lt (by decide), saturate_of_mem (by decide) (by decide),
    saturate_of_maxOf_lt (by decide)⟩
  have hw := minOf_lt_maxOf w
  obtain ⟨hlo, hhi⟩ := zero_mem_range w
  exact ⟨hw,
    fun x => ⟨saturate_of_maxOf_lt, saturate_of_lt_minOf, saturate_of_mem, minOf_le_saturate_fst x w,
      saturate_fst_le_maxOf x w⟩,
    saturate_of_mem hw.le le_rfl, saturate_of_mem le_rfl hw.le, saturate_of_maxOf_lt (lt_add_one _),
    saturate_of_lt_minOf (sub_one_lt _), saturate_of_mem hlo hhi⟩

/-! ### Nearest, monotone, idempotent (R36) -/

/-- The indicator stays low exactly on the integers of the range. -/
theorem saturate_snd_eq_false_iff (x : Int) (w : Width) :
    (saturate x w).2 = false ↔ minOf w ≤ x ∧ x ≤ maxOf w := by
  rcases saturate_cases x w with ⟨hx, e⟩ | ⟨hx, e⟩ | ⟨hlo, hhi, e⟩
  · simp [e, hx]
  · simp [e, hx]
  · simp [e, hlo, hhi]

/-- The indicator is high exactly when the value changed. -/
theorem saturate_snd_eq_true_iff (x : Int) (w : Width) :
    (saturate x w).2 = true ↔ (saturate x w).1 ≠ x := by
  rcases saturate_cases x w with ⟨hx, e⟩ | ⟨hx, e⟩ | ⟨-, -, e⟩
  · simp [e, hx.ne]
  · simp [e, hx.ne']
  · simp [e]

/-- Every other integer of the range is farther away: past an end of the range it lies behind that end, and inside the range
the distance to the value is 0. -/
theorem saturate_fst_nearest {x y : Int} {w : Width} (hlo : minOf w ≤ y) (hhi : y ≤ maxOf w)
    (hne : y ≠ (saturate x w).1) : |x - (saturate x w).1| < |x - y| := by
  rcases saturate_cases x w with ⟨hx, e⟩ | ⟨hx, e⟩ | ⟨-, -, e⟩ <;> rw [e] at hne ⊢
  · have hy : y < maxOf w := lt_of_le_of_ne hhi hne
    rw [abs_of_pos (by omega), abs_of_pos (by omega)]
    omega
  · have hy : minOf w < y := lt_of_le_of_ne hlo hne.symm
    rw [abs_of_neg (by omega), abs_of_neg (by omega)]
    omega
  · rw [sub_self, abs_zero]
    exact abs_pos.mpr (sub_ne_zero.mpr hne.symm)

theorem saturate_fst_mono (w : Width) : Monotone fun x => (saturate x w).1 := by
  intro x y hxy
  simp only [saturate_fst_eq_clamp]
  exact max_le_max_left _ (min_le_min_left _ hxy)

/-- Settles O5: each bullet of R36 is one of the laws above; the primitive is idempotent because its value is in range. -/
theorem saturateClampsToTheNearestInRange : Obligations.SaturateClampsToTheNearestInRange := by
  unfold Obligations.SaturateClampsToTheNearestInRange
  intro w x
  have hlo := minOf_le_saturate_fst x w
  have hhi := saturate_fst_le_maxOf x w
  have unchanged (hf : (saturate x w).2 = false) : (saturate x w).1 = x := by
    obtain ⟨hx, hx'⟩ := (saturate_snd_eq_false_iff x w).mp hf
    rw [saturate_of_mem hx hx']
  exact ⟨⟨hlo, hhi⟩, saturate_snd_eq_false_iff x w, unchanged, saturate_snd_eq_true_iff x w,
    fun _ => saturate_fst_nearest, saturate_fst_eq_clamp x w, fun _ hxy => saturate_fst_mono w hxy,
    saturate_of_mem hlo hhi⟩

/-! ### The exact sum needs one more bit (R37, R38) -/

/-- The range of the exact sum of two `w`-bit operands (R37). -/
theorem exactSum_range {w : Nat} (hw : 0 < w) (u v : BitVec w) :
    -2 ^ w ≤ exactSum u v ∧ exactSum u v ≤ 2 ^ w - 2 := by
  have hpow : (2 : Int) ^ w = 2 * 2 ^ (w - 1) := (mul_pow_sub_one hw.ne' 2).symm
  have hu := BitVec.le_toInt u
  have hu' := BitVec.toInt_lt (x := u)
  have hv := BitVec.le_toInt v
  have hv' := BitVec.toInt_lt (x := v)
  rw [exactSum_eq]
  omega

/-- Settles O6: the range at `w = 32` and at `w = 16`, and its two ends evaluated. -/
theorem exactSumStaysInOneMoreBit : Obligations.ExactSumStaysInOneMoreBit := by
  unfold Obligations.ExactSumStaysInOneMoreBit
  exact ⟨exactSum_range (by decide), exactSum_range (by decide), by decide, by decide, by decide, by decide⟩

/-- An adder with a bit to spare does not wrap: the exact sum is in its signed range (R38). -/
theorem toInt_add_signExtend {w k : Nat} (hw : 0 < w) (hk : w < k) (u v : BitVec w) :
    (u.signExtend k + v.signExtend k).toInt = exactSum u v := by
  obtain ⟨hlo, hhi⟩ := exactSum_range hw u v
  have hpow : (2 : Int) ^ k = 2 * 2 ^ (k - 1) := (mul_pow_sub_one (by omega) 2).symm
  have hle : (2 : Int) ^ w ≤ 2 ^ (k - 1) := pow_le_pow_right₀ (by decide) (by omega)
  rw [BitVec.toInt_add, BitVec.toInt_signExtend_of_le hk.le, BitVec.toInt_signExtend_of_le hk.le, ← exactSum_eq]
  exact Int.bmod_eq_of_le_mul_two (by push_cast; omega) (by push_cast; omega)

/-- Settles O7: a wider adder gives the exact sum, so `saturate` is asked of the same integer; in `w` bits the largest operand
plus 1 wraps to the smallest. -/
theorem intermediateOfOneMoreBitSuffices : Obligations.IntermediateOfOneMoreBitSuffices := by
  unfold Obligations.IntermediateOfOneMoreBitSuffices
  refine ⟨fun k hk a b => ?_, fun k hk u v => ?_, ⟨0x7FFFFFFF, 1, by decide⟩, ⟨0x7FFF, 1, by decide⟩⟩
  · have hsum := toInt_add_signExtend (by decide) hk a b
    exact ⟨hsum, by rw [hsum]⟩
  · have hsum := toInt_add_signExtend (by decide) hk u v
    exact ⟨hsum, by rw [hsum]⟩

end Sys2Proof.Machine
end

section
/-! The family of spec/41_scalar_add.md: `QADD` as the clamped exact sum (R40) and its laws (R41 to R45), and the wrapping adder
with a sign test that gives the same outcome (R46), with the consequences (R47). -/

namespace Sys2Proof.Machine

/-! ### The outcome of `QADD` is what the scalar adder answers -/

theorem gives_qadd (a b : Word) : Gives (.qadd a b) (saturatingAdder32 a b) :=
  exec_qadd a b

theorem gives_qadd_of_eq {a b : Word} {out : Word × Bool} (h : saturatingAdder32 a b = out) :
    Gives (.qadd a b) out :=
  h ▸ gives_qadd a b

/-! ### The clamped exact sum (R40) -/

/-- The scalar adder clamps the exact sum, in Lean's readings. -/
theorem scalar_eq_saturate (a b : Word) :
    saturatingAdder32 a b =
      (bits 32 (saturate (a.toInt + b.toInt) .w32).1, (saturate (a.toInt + b.toInt) .w32).2) := by
  rw [← exactSum_eq]
  rfl

/-- The result reads as the clamped exact sum: that sum fits the word. -/
theorem scalar_fst_toInt (a b : Word) :
    (saturatingAdder32 a b).1.toInt = (saturate (a.toInt + b.toInt) .w32).1 := by
  rw [scalar_eq_saturate]
  exact toInt_bits_word (minOf_w32 ▸ minOf_le_saturate_fst _ .w32) (maxOf_w32 ▸ saturate_fst_le_maxOf _ .w32)

/-- The indicator stays low exactly when the exact sum is in range. -/
theorem scalar_snd_eq_false_iff (a b : Word) :
    (saturatingAdder32 a b).2 = false ↔
      -2147483648 ≤ a.toInt + b.toInt ∧ a.toInt + b.toInt ≤ 2147483647 := by
  rw [scalar_eq_saturate, saturate_snd_eq_false_iff, minOf_w32, maxOf_w32]

/-- Unsaturated, the result reads as the exact sum. -/
theorem scalar_fst_toInt_of_snd_false {a b : Word} (hf : (saturatingAdder32 a b).2 = false) :
    (saturatingAdder32 a b).1.toInt = a.toInt + b.toInt := by
  obtain ⟨hlo, hhi⟩ := (scalar_snd_eq_false_iff a b).mp hf
  rw [scalar_fst_toInt, saturate_of_mem (by rwa [minOf_w32]) (by rwa [maxOf_w32])]

/-- Unsaturated, the result is the wrapping sum (R47). -/
theorem scalar_fst_of_snd_false {a b : Word} (hf : (saturatingAdder32 a b).2 = false) :
    (saturatingAdder32 a b).1 = a + b := by
  rw [← BitVec.toInt_inj, BitVec.toInt_add, ← scalar_fst_toInt_of_snd_false hf, BitVec.toInt_bmod_cancel]

theorem scalar_comm (a b : Word) : saturatingAdder32 a b = saturatingAdder32 b a := by
  rw [scalar_eq_saturate, scalar_eq_saturate, add_comm]

/-- The sum with 0 is the operand itself, which is in range (R43). -/
theorem scalar_zero_right (a : Word) : saturatingAdder32 a 0 = (a, false) := by
  have hf : (saturatingAdder32 a 0).2 = false := (scalar_snd_eq_false_iff a 0).mpr (by simpa using word_toInt_range a)
  exact Prod.ext ((scalar_fst_of_snd_false hf).trans (add_zero a)) hf

theorem scalar_zero_left (a : Word) : saturatingAdder32 0 a = (a, false) :=
  (scalar_comm 0 a).trans (scalar_zero_right a)

/-- A larger first operand gives no smaller result: clamping is monotone (R47). -/
theorem scalar_fst_toInt_mono {a a' : Word} (b : Word) (h : a.toInt ≤ a'.toInt) :
    (saturatingAdder32 a b).1.toInt ≤ (saturatingAdder32 a' b).1.toInt := by
  rw [scalar_fst_toInt, scalar_fst_toInt]
  exact saturate_fst_mono .w32 (add_le_add_left h b.toInt)

/-- Settles O8: the three branches are the three answers of the adder; equal operands make the exact sum twice the operand, and
the fixed operands are evaluated. -/
theorem qaddGivesTheClampedExactSum : Obligations.QaddGivesTheClampedExactSum := by
  unfold Obligations.QaddGivesTheClampedExactSum
  refine ⟨fun a b => gives_qadd_of_eq ?_, fun a => gives_qadd_of_eq (scalar_zero_right a), fun a => gives_qadd_of_eq ?_,
    gives_qadd_of_eq (by decide), gives_qadd_of_eq (by decide), gives_qadd_of_eq (by decide),
    gives_qadd_of_eq (by decide), gives_qadd_of_eq (by decide), gives_qadd_of_eq (by decide),
    gives_qadd_of_eq (by decide), gives_qadd_of_eq (by decide)⟩
  · rcases scalar_cases a b with ⟨hx, e⟩ | ⟨hx, e⟩ | ⟨hlo, hhi, e⟩
    · rw [e, if_pos hx]
    · rw [e, if_neg (by omega), if_pos hx]
    · rw [e, if_neg hhi.not_gt, if_neg hlo.not_gt, bits]
  · rw [scalar_eq_saturate, ← two_mul, bits]

/-! ### The laws the source states (R41 to R45) -/

/-- Settles O9: both requests and the exact sum are evaluated. -/
theorem qaddSaturatesSymmetrically : Obligations.QaddSaturatesSymmetrically := by
  unfold Obligations.QaddSaturatesSymmetrically
  exact ⟨gives_qadd_of_eq (by decide), gives_qadd_of_eq (by decide), by decide⟩

/-- Settles O10: both requests give what the adder answers, and the adder is commutative. -/
theorem qaddIsCommutative : Obligations.QaddIsCommutative := by
  unfold Obligations.QaddIsCommutative
  exact fun a b => ⟨saturatingAdder32 a b, gives_qadd a b, gives_qadd_of_eq (scalar_comm b a)⟩

/-- Settles O11: zero is an identity of the adder on either side. -/
theorem qaddHasZeroAsIdentity : Obligations.QaddHasZeroAsIdentity := by
  unfold Obligations.QaddHasZeroAsIdentity
  exact fun a => ⟨gives_qadd_of_eq (scalar_zero_right a), gives_qadd_of_eq (scalar_zero_left a)⟩

/-- Settles O12: the indicator alone says that the exact sum is in range, and then clamping leaves it as it is. -/
theorem qaddReportsSaturationExactly : Obligations.QaddReportsSaturationExactly := by
  unfold Obligations.QaddReportsSaturationExactly
  intro a b
  have hrange := scalar_snd_eq_false_iff a b
  refine ⟨(saturatingAdder32 a b).1, (saturatingAdder32 a b).2, gives_qadd a b, ?_, fun hout => ?_⟩
  · exact ⟨fun ⟨hf, _⟩ => hrange.mp hf, fun hin => ⟨hrange.mpr hin, scalar_fst_toInt_of_snd_false (hrange.mpr hin)⟩⟩
  · exact (Bool.not_eq_false _).mp (mt hrange.mp hout)

/-! ### The wrapping adder with a sign test (R46) -/

/-- The wrapping sum of R46 is the sum of the words. -/
theorem ofNat_add_mod_eq_add {w : Nat} (u v : BitVec w) :
    BitVec.ofNat w ((u.toNat + v.toNat) % 2 ^ w) = u + v := by
  apply BitVec.eq_of_toNat_eq
  simp

/-- The comparison of signs of R46 and R56 finds exactly the sums out of range. -/
theorem signTest_eq_true_iff {w : Nat} (u v : BitVec w) :
    (u.msb == v.msb && (u + v).msb != u.msb) = true ↔ OutOfRange w (u.toInt + v.toInt) := by
  have htest : (u.msb == v.msb && (u + v).msb != u.msb) = u.saddOverflow v := (BitVec.saddOverflow_eq u v).symm
  rw [htest, BitVec.saddOverflow]
  simp only [Bool.or_eq_true, decide_eq_true_eq, OutOfRange]
  omega

/-- The indicator is the sign test. -/
theorem scalar_snd_eq_signTest (a b : Word) :
    (saturatingAdder32 a b).2 = (a.msb == b.msb && (a + b).msb != a.msb) := by
  rw [Bool.eq_iff_iff, signTest_eq_true_iff, ← Bool.not_eq_false, scalar_snd_eq_false_iff]
  simp only [OutOfRange]
  omega

/-- Saturated, the result is the extreme on the side of the first operand's sign: one operand alone is in range, so a sum past
an end needs both operands on that end's side of 0. -/
theorem scalar_fst_of_snd_true {a b : Word} (hf : (saturatingAdder32 a b).2 = true) :
    (saturatingAdder32 a b).1 = if a.msb = false then 0x7FFFFFFF else 0x80000000 := by
  obtain ⟨hlo, hhi⟩ := word_toInt_range b
  rcases scalar_cases a b with ⟨hx, e⟩ | ⟨hx, e⟩ | ⟨-, -, e⟩
  · have ha : a.msb = false := by rw [BitVec.msb_eq_toInt, decide_eq_false_iff_not]; omega
    rw [e, if_pos ha]
  · have ha : a.msb = true := by rw [BitVec.msb_eq_toInt, decide_eq_true_eq]; omega
    rw [e, if_neg (by simp [ha])]
  · simp [e] at hf

/-- A saturated result keeps the first operand's sign. -/
theorem scalar_fst_msb_of_snd_true {a b : Word} (hf : (saturatingAdder32 a b).2 = true) :
    (saturatingAdder32 a b).1.msb = a.msb := by
  rw [scalar_fst_of_snd_true hf]
  cases a.msb <;> decide

/-- The scalar adder is a wrapping adder with a sign test (R46). -/
theorem scalar_eq_wrapping (a b : Word) :
    let ovf := a.msb == b.msb && (a + b).msb != a.msb
    saturatingAdder32 a b =
      (if ovf = false then a + b else if a.msb = false then 0x7FFFFFFF else 0x80000000, ovf) := by
  intro ovf
  have hovf : (saturatingAdder32 a b).2 = ovf := scalar_snd_eq_signTest a b
  refine Prod.ext ?_ hovf
  rw [← hovf]
  cases hf : (saturatingAdder32 a b).2 with
  | false => exact scalar_fst_of_snd_false hf
  | true => exact scalar_fst_of_snd_true hf

/-- Settles O13: bit 31 is the sign and the sum modulo `2^32` is the sum of the words, so this is the wrapping adder above. -/
theorem qaddIsAWrappingAdderWithSignTest : Obligations.QaddIsAWrappingAdderWithSignTest := by
  unfold Obligations.QaddIsAWrappingAdderWithSignTest
  intro a b
  rw [ofNat_add_mod_eq_add]
  exact gives_qadd_of_eq (scalar_eq_wrapping a b)

/-! ### Consequences (R47) -/

/-- Saturated, the result is not the wrapping sum: it keeps the first operand's sign, which the wrapping sum has lost. -/
theorem scalar_fst_ne_of_snd_true {a b : Word} (hf : (saturatingAdder32 a b).2 = true) :
    (saturatingAdder32 a b).1 ≠ a + b := by
  intro he
  have hsign := scalar_fst_msb_of_snd_true hf
  rw [he] at hsign
  simp [scalar_snd_eq_signTest, hsign] at hf

theorem scalar_snd_of_signs_ne {a b : Word} (h : a.msb ≠ b.msb) : (saturatingAdder32 a b).2 = false := by
  simp [scalar_snd_eq_signTest, h]

/-- Settles O14: agreement with the wrapping sum and the signs come from the bit-level form, a zero operand from the identity,
and the four evaluations from the fixed operands. -/
theorem qaddConsequencesHold : Obligations.QaddConsequencesHold := by
  unfold Obligations.QaddConsequencesHold
  refine ⟨fun a b => ⟨(saturatingAdder32 a b).1, (saturatingAdder32 a b).2, gives_qadd a b, scalar_fst_of_snd_false,
      scalar_fst_ne_of_snd_true, ?_⟩,
    fun a a' b => ⟨(saturatingAdder32 a b).1, (saturatingAdder32 a b).2, (saturatingAdder32 a' b).1,
      (saturatingAdder32 a' b).2, gives_qadd a b, gives_qadd a' b, scalar_fst_toInt_mono b⟩,
    ⟨true, false, false, false, gives_qadd_of_eq (by decide), gives_qadd_of_eq (by decide), gives_qadd_of_eq (by decide),
      gives_qadd_of_eq (by decide)⟩, by decide⟩
  rintro (hsigns | rfl | rfl)
  · exact scalar_snd_of_signs_ne hsigns
  · rw [scalar_zero_left]
  · rw [scalar_zero_right]

end Sys2Proof.Machine
end

section
/-! The family of spec/42_packed_add16.md: what one lane answers (R48, R56), how the two lanes make the outcome of `QADD16` (R49 to
R53), and the consequences (R55). -/

namespace Sys2Proof.Machine

/-! ### One lane: the clamped lane sum (R48) -/

theorem lane_eq_saturate (u v : Lane) :
    qadd16Lane u v = (bits 16 (saturate (u.toInt + v.toInt) .w16).1, (saturate (u.toInt + v.toInt) .w16).2) := by
  rw [← exactSum_eq]
  rfl

/-- The three branches of R48, in numerals. -/
theorem lane_eq_ite (u v : Lane) :
    qadd16Lane u v =
      if 32767 < u.toInt + v.toInt then (0x7FFF, true)
      else if u.toInt + v.toInt < -32768 then (0x8000, true)
      else (BitVec.ofInt 16 (u.toInt + v.toInt), false) := by
  rcases lane_cases u v with ⟨hx, e⟩ | ⟨hx, e⟩ | ⟨hlo, hhi, e⟩
  · rw [e, if_pos hx]
  · rw [e, if_neg (by omega), if_pos hx]
  · rw [e, if_neg hhi.not_gt, if_neg hlo.not_gt, bits]

theorem lane_snd_eq_false_iff (u v : Lane) :
    (qadd16Lane u v).2 = false ↔ -32768 ≤ u.toInt + v.toInt ∧ u.toInt + v.toInt ≤ 32767 := by
  rw [lane_eq_saturate, saturate_snd_eq_false_iff, minOf_w16, maxOf_w16]

theorem lane_snd_eq_true_iff (u v : Lane) :
    (qadd16Lane u v).2 = true ↔ OutOfRange 16 (u.toInt + v.toInt) := by
  rw [← Bool.not_eq_false, lane_snd_eq_false_iff]
  simp only [OutOfRange]
  omega

/-- The bits of the exact sum are the wrapping sum. -/
theorem bits_add_toInt {k : Nat} (u v : BitVec k) : bits k (u.toInt + v.toInt) = u + v := by
  rw [bits, BitVec.ofInt_add, BitVec.ofInt_toInt, BitVec.ofInt_toInt]

/-- Unsaturated, the lane holds the wrapping sum (R55). -/
theorem lane_fst_of_snd_false {u v : Lane} (hf : (qadd16Lane u v).2 = false) : (qadd16Lane u v).1 = u + v := by
  obtain ⟨hlo, hhi⟩ := (lane_snd_eq_false_iff u v).mp hf
  rw [lane_eq_saturate, saturate_of_mem (by rwa [minOf_w16]) (by rwa [maxOf_w16]), bits_add_toInt]

theorem lane_comm (u v : Lane) : qadd16Lane u v = qadd16Lane v u := by
  rw [lane_eq_saturate, lane_eq_saturate, add_comm]

/-- The sum with 0 is the operand itself, which is in range. -/
theorem lane_zero_right (u : Lane) : qadd16Lane u 0 = (u, false) := by
  have hf : (qadd16Lane u 0).2 = false := (lane_snd_eq_false_iff u 0).mpr (by simpa using lane_toInt_range u)
  exact Prod.ext ((lane_fst_of_snd_false hf).trans (add_zero u)) hf

/-! ### One lane: the wrapping adder with a sign test (R56) -/

/-- In each of the lane's three answers the sign test tells whether the sum is in range; and one operand alone is in range, so a
sum past an end has its first operand on that end's side of 0. -/
theorem lane_eq_wrapping (u v : Lane) :
    let ovf := u.msb == v.msb && (u + v).msb != u.msb
    qadd16Lane u v = (if ovf = false then u + v else if u.msb = false then 0x7FFF else 0x8000, ovf) := by
  intro ovf
  have htest : ovf = true ↔ OutOfRange 16 (u.toInt + v.toInt) := signTest_eq_true_iff u v
  have hsign : u.msb = decide (u.toInt < 0) := BitVec.msb_eq_toInt
  obtain ⟨hlo, hhi⟩ := lane_toInt_range v
  rcases lane_cases u v with ⟨hx, e⟩ | ⟨hx, e⟩ | ⟨hx, hx', e⟩
  · have hovf : ovf = true := htest.mpr (.inr hx)
    have hu : ¬ u.toInt < 0 := by omega
    simp [e, hovf, hsign, hu]
  · have hovf : ovf = true := htest.mpr (.inl hx)
    have hu : u.toInt < 0 := by omega
    simp [e, hovf, hsign, hu]
  · have hovf : ovf = false := (Bool.not_eq_true _).mp (mt htest.mp (by simp only [OutOfRange]; omega))
    rw [e, bits_add_toInt, hovf, if_pos rfl]

/-- Settles O23: bit 15 is the sign and the sum modulo `2^16` is the sum of the lanes, so this is the wrapping adder above. -/
theorem laneIsAWrappingAdderWithSignTest : Obligations.LaneIsAWrappingAdderWithSignTest := by
  unfold Obligations.LaneIsAWrappingAdderWithSignTest
  intro u v
  rw [ofNat_add_mod_eq_add]
  exact lane_eq_wrapping u v

/-! ### The outcome of `QADD16` is what the packed adder answers -/

theorem gives_qadd16 (a b : Word) : Gives (.qadd16 a b) (saturatingAdder16PackedDual a b) :=
  exec_qadd16 a b

theorem gives_qadd16_of_eq {a b : Word} {out : Word × Bool} (h : saturatingAdder16PackedDual a b = out) :
    Gives (.qadd16 a b) out :=
  h ▸ gives_qadd16 a b

/-! ### The two lanes side by side (R49 to R52) -/

/-- The low half of the result is the low lane's, with nothing of the high lane in it (R50). -/
theorem packed_loLane (a b : Word) :
    (saturatingAdder16PackedDual a b).1.extractLsb' 0 16 =
      (qadd16Lane (a.extractLsb' 0 16) (b.extractLsb' 0 16)).1 := by
  rw [packed_eq, loLane_pack]

/-- The high half of the result is the high lane's, with no sign of the low lane in it (R50). -/
theorem packed_hiLane (a b : Word) :
    (saturatingAdder16PackedDual a b).1.extractLsb' 16 16 =
      (qadd16Lane (a.extractLsb' 16 16) (b.extractLsb' 16 16)).1 := by
  rw [packed_eq, hiLane_pack]

/-- The indicator is low exactly when both lanes' are (R51). -/
theorem packed_snd_eq_false_iff (a b : Word) :
    (saturatingAdder16PackedDual a b).2 = false ↔
      (qadd16Lane (a.extractLsb' 0 16) (b.extractLsb' 0 16)).2 = false ∧
      (qadd16Lane (a.extractLsb' 16 16) (b.extractLsb' 16 16)).2 = false := by
  rw [packed_eq, Bool.or_eq_false_iff]

/-- The low half of the result is a function of the low halves (R52). -/
theorem packed_loLane_congr {a b a' b' : Word} (ha : a.extractLsb' 0 16 = a'.extractLsb' 0 16)
    (hb : b.extractLsb' 0 16 = b'.extractLsb' 0 16) :
    (saturatingAdder16PackedDual a b).1.extractLsb' 0 16 = (saturatingAdder16PackedDual a' b').1.extractLsb' 0 16 := by
  rw [packed_loLane, packed_loLane, ha, hb]

/-- The high half of the result is a function of the high halves (R52). -/
theorem packed_hiLane_congr {a b a' b' : Word} (ha : a.extractLsb' 16 16 = a'.extractLsb' 16 16)
    (hb : b.extractLsb' 16 16 = b'.extractLsb' 16 16) :
    (saturatingAdder16PackedDual a b).1.extractLsb' 16 16 = (saturatingAdder16PackedDual a' b').1.extractLsb' 16 16 := by
  rw [packed_hiLane, packed_hiLane, ha, hb]

theorem packed_comm (a b : Word) : saturatingAdder16PackedDual a b = saturatingAdder16PackedDual b a := by
  rw [packed_eq, packed_eq, lane_comm (a.extractLsb' 0 16), lane_comm (a.extractLsb' 16 16)]

/-- Zero has zero lanes, and each of them is an identity of its lane. -/
theorem packed_zero_right (a : Word) : saturatingAdder16PackedDual a 0 = (a, false) := by
  have hlo : (0 : Word).extractLsb' 0 16 = 0 := by decide
  have hhi : (0 : Word).extractLsb' 16 16 = 0 := by decide
  rw [packed_eq, hlo, hhi, lane_zero_right, lane_zero_right, pack_lanes, Bool.or_self]

theorem packed_zero_left (a : Word) : saturatingAdder16PackedDual 0 a = (a, false) :=
  (packed_comm 0 a).trans (packed_zero_right a)

/-- Unsaturated, the result is the two wrapping sums side by side (R55). -/
theorem packed_fst_of_snd_false {a b : Word} (hf : (saturatingAdder16PackedDual a b).2 = false) :
    (saturatingAdder16PackedDual a b).1 =
      packLanes (a.extractLsb' 16 16 + b.extractLsb' 16 16) (a.extractLsb' 0 16 + b.extractLsb' 0 16) := by
  obtain ⟨hlo, hhi⟩ := (packed_snd_eq_false_iff a b).mp hf
  rw [packed_eq, lane_fst_of_snd_false hlo, lane_fst_of_snd_false hhi]

/-- A word with its two lanes exchanged. -/
def swapLanes (v : Word) : Word := packLanes (v.extractLsb' 0 16) (v.extractLsb' 16 16)

theorem swapLanes_loLane (v : Word) : (swapLanes v).extractLsb' 0 16 = v.extractLsb' 16 16 := loLane_pack _ _

theorem swapLanes_hiLane (v : Word) : (swapLanes v).extractLsb' 16 16 = v.extractLsb' 0 16 := hiLane_pack _ _

/-- Exchanging the lanes of both operands exchanges those of the result and keeps the indicator (R55). -/
theorem packed_swapLanes (a b : Word) :
    saturatingAdder16PackedDual (swapLanes a) (swapLanes b) =
      (swapLanes (saturatingAdder16PackedDual a b).1, (saturatingAdder16PackedDual a b).2) := by
  rw [packed_eq, swapLanes_loLane, swapLanes_loLane, swapLanes_hiLane, swapLanes_hiLane, Bool.or_comm, swapLanes,
    packed_loLane, packed_hiLane, packed_eq a b]

/-! ### The statements of the rules -/

/-- Settles O15: the two lanes stand side by side, each with R48's three branches; zero is an identity, and the fixed operands are
evaluated. -/
theorem qaddSixteenGivesTheClampedLaneSums : Obligations.QaddSixteenGivesTheClampedLaneSums := by
  unfold Obligations.QaddSixteenGivesTheClampedLaneSums
  refine ⟨fun a b => gives_qadd16_of_eq ?_, fun a => gives_qadd16_of_eq (packed_zero_right a),
    gives_qadd16_of_eq (by decide), gives_qadd16_of_eq (by decide), gives_qadd16_of_eq (by decide),
    gives_qadd16_of_eq (by decide), gives_qadd16_of_eq (by decide), gives_qadd16_of_eq (by decide),
    gives_qadd_of_eq (by decide), gives_qadd16_of_eq (by decide), gives_qadd16_of_eq (by decide),
    gives_qadd16_of_eq (by decide), gives_qadd16_of_eq (by decide), gives_qadd16_of_eq (by decide)⟩
  rw [packed_eq, lane_eq_ite, lane_eq_ite, packLanes]

/-- Settles O16: the halves are lanes, so their readings are in the lane range, and each half of the result is its own lane's
clamped sum. -/
theorem qaddSixteenDecomposesAndReassembles : Obligations.QaddSixteenDecomposesAndReassembles := by
  unfold Obligations.QaddSixteenDecomposesAndReassembles
  refine ⟨fun v => ?_, fun a b => ⟨(saturatingAdder16PackedDual a b).1, (saturatingAdder16PackedDual a b).2, gives_qadd16 a b,
    ?_, ?_⟩, by decide, gives_qadd16_of_eq (by decide)⟩
  · obtain ⟨hlo, hlo'⟩ := lane_toInt_range (v.extractLsb' 0 16)
    exact ⟨hlo, hlo', lane_toInt_range (v.extractLsb' 16 16)⟩
  · rw [packed_loLane, lane_eq_saturate, bits]
  · rw [packed_hiLane, lane_eq_saturate, bits]

/-- Settles O17: the indicator is the OR by the packed adder's form, and each lane's flag says that its sum is out of range; the
five requests are evaluated. -/
theorem qaddSixteenFlagIsTheOrOfTheLanes : Obligations.QaddSixteenFlagIsTheOrOfTheLanes := by
  unfold Obligations.QaddSixteenFlagIsTheOrOfTheLanes
  refine ⟨fun a b => ⟨_, _, gives_qadd16_of_eq (packed_eq a b), rfl, ?_⟩,
    0x00007FFF, 0x7FFF0000, 0x7FFF7FFF, 0x80008000, 0x7FFF8000, gives_qadd16_of_eq (by decide),
    gives_qadd16_of_eq (by decide), gives_qadd16_of_eq (by decide), gives_qadd16_of_eq (by decide),
    gives_qadd16_of_eq (by decide)⟩
  rw [Bool.or_eq_true, lane_snd_eq_true_iff, lane_snd_eq_true_iff]

/-- Settles O18: each half of the result depends on the same halves of the operands alone; the source's test is evaluated. -/
theorem qaddSixteenLanesAreIndependent : Obligations.QaddSixteenLanesAreIndependent := by
  unfold Obligations.QaddSixteenLanesAreIndependent
  exact ⟨fun a b a' b' => ⟨_, _, _, _, gives_qadd16 a b, gives_qadd16 a' b', packed_loLane_congr, packed_hiLane_congr⟩,
    gives_qadd16_of_eq (by decide)⟩

/-- Settles O22: the laws of the packed adder above; a half that is replaced leaves the other half of the operands, hence of the
result, as it was; and the four evaluations that deny association are of fixed operands. -/
theorem qaddSixteenConsequencesHold : Obligations.QaddSixteenConsequencesHold := by
  unfold Obligations.QaddSixteenConsequencesHold
  refine ⟨fun a b => ⟨(saturatingAdder16PackedDual a b).1, (saturatingAdder16PackedDual a b).2, gives_qadd16 a b,
      gives_qadd16_of_eq (packed_comm b a), ?_, packed_fst_of_snd_false, gives_qadd16_of_eq (packed_swapLanes a b)⟩,
    fun a => ⟨gives_qadd16_of_eq (packed_zero_right a), gives_qadd16_of_eq (packed_zero_left a)⟩,
    fun a b h h' => ⟨_, _, _, _, gives_qadd16 a b, gives_qadd16 _ _,
      packed_loLane_congr (loLane_pack h _).symm (loLane_pack h' _).symm⟩,
    fun a b l l' => ⟨_, _, _, _, gives_qadd16 a b, gives_qadd16 _ _,
      packed_hiLane_congr (hiLane_pack _ l).symm (hiLane_pack _ l').symm⟩,
    true, false, false, false, gives_qadd16_of_eq (by decide), gives_qadd16_of_eq (by decide),
    gives_qadd16_of_eq (by decide), gives_qadd16_of_eq (by decide)⟩
  rw [packed_snd_eq_false_iff, lane_snd_eq_false_iff, lane_snd_eq_false_iff]

/-- Settles O19: the fixed requests, lanes, sums and halves are evaluated. -/
theorem qaddSixteenOfReferenceTestTwo : Obligations.QaddSixteenOfReferenceTestTwo := by
  unfold Obligations.QaddSixteenOfReferenceTestTwo
  exact ⟨gives_qadd16_of_eq (by decide), gives_qadd16_of_eq (by decide), by decide, by decide, by decide, by decide,
    by decide, by decide⟩

end Sys2Proof.Machine
end

section
/-! The family of spec/43_block_function.md: the source's six testable properties (R65), a lemma a row, each from the rule its row
names. -/

namespace Sys2Proof.Machine

theorem idempotentBoundary : IdempotentBoundary := fun a => gives_qadd_of_eq (scalar_zero_right a)

/-- The two extremes are R44's, without the exact sum that R41 adds to them. -/
theorem symmetricSaturation : SymmetricSaturation := by
  obtain ⟨hmax, hmin, -⟩ := qaddSaturatesSymmetrically
  exact ⟨hmax, hmin⟩

/-- A sum that is not out of range keeps the indicator low, and an unsaturated result reads as the exact sum (R45). -/
theorem noFalsePositives : NoFalsePositives := by
  intro a b hin
  have hf : (saturatingAdder32 a b).2 = false := (scalar_snd_eq_false_iff a b).mpr (by omega)
  exact ⟨_, gives_qadd_of_eq (Prod.ext rfl hf), scalar_fst_toInt_of_snd_false hf⟩

/-- The request is R52's test; which of its lanes clamps is evaluated. -/
theorem packedLaneIndependence : PackedLaneIndependence :=
  ⟨qaddSixteenLanesAreIndependent.2, by decide, by decide⟩

theorem referenceTestOne : ReferenceTestOne := symmetricSaturation.1

/-- The request is R53's scenario; its high halfword is evaluated. -/
theorem referenceTestTwo : ReferenceTestTwo := ⟨qaddSixteenOfReferenceTestTwo.1, by decide⟩

/-- Settles O44: the six rows of R65, the first four as theorems and the last two from the evaluations of R41 and R53. -/
theorem sourcesSixPropertiesHold : Obligations.SourcesSixPropertiesHold := by
  unfold Obligations.SourcesSixPropertiesHold
  exact ⟨idempotentBoundary, symmetricSaturation, noFalsePositives, packedLaneIndependence, referenceTestOne,
    referenceTestTwo⟩

end Sys2Proof.Machine
end

section
/-! Requests: the decoder against the encoder on the ports and in plain numbers (R27 to R33), the host's
selector words (R30), and the written form of a request (R31). -/

namespace Sys2Proof

/-! ### On the ports -/

theorem decode_encode (i : Instr) : decode (encode i) = i := by
  cases i <;> rfl

/-- No port triple is lost: the 1-bit selector has only the two values of R28. -/
theorem encode_decode (r : Request) : encode (decode r) = r := by
  obtain ⟨op, a, b⟩ := r
  rcases Machine.selector_cases op with rfl | rfl <;> rfl

/-! ### In plain numbers -/

/-- A port triple written with plain numbers. -/
def Request.raw (r : Request) : RawRequest := { sel := r.op.toNat, a := r.a.toNat, b := r.b.toNat }

theorem encodeRaw_eq_raw (i : Instr) : encodeRaw i = (encode i).raw := rfl

theorem selectorOf_of_lt {n : Nat} (h : n < 2) : selectorOf n = .ok (BitVec.ofNat 1 n) := by
  match n with
  | 0 => rfl
  | 1 => rfl

theorem selectorOf_of_two_le {n : Nat} (h : 2 ≤ n) : selectorOf n = .error (.selectorNotEncoded n) := by
  match n with
  | _ + 2 => rfl

theorem operandOf_of_lt {n : Nat} (h : n < 2 ^ 32) : operandOf n = .ok (BitVec.ofNat 32 n) :=
  if_pos h

theorem operandOf_of_le {n : Nat} (h : 2 ^ 32 ≤ n) : operandOf n = .error (.operandNotAWord n) :=
  if_neg h.not_gt

theorem rawRequest_wellFormed_iff (r : RawRequest) :
    r.wellFormed = true ↔ r.sel < 2 ∧ r.a < 2 ^ 32 ∧ r.b < 2 ^ 32 := by
  simp only [RawRequest.wellFormed, RawRequest.selectorWellFormed, RawRequest.operandsWellFormed, Bool.and_eq_true,
    decide_eq_true_eq]

theorem raw_wellFormed (r : Request) : r.raw.wellFormed = true :=
  (rawRequest_wellFormed_iff r.raw).mpr ⟨r.op.isLt, r.a.isLt, r.b.isLt⟩

/-- The well-formed plain requests are the port triples and nothing else (R19). -/
theorem exists_raw_of_wellFormed {r : RawRequest} (h : r.wellFormed = true) : ∃ q : Request, q.raw = r := by
  obtain ⟨hsel, ha, hb⟩ := (rawRequest_wellFormed_iff r).mp h
  refine ⟨{ op := BitVec.ofNat 1 r.sel, a := BitVec.ofNat 32 r.a, b := BitVec.ofNat 32 r.b }, ?_⟩
  simp only [Request.raw, BitVec.toNat_ofNat, Nat.mod_eq_of_lt ha, Nat.mod_eq_of_lt hb,
    Nat.mod_eq_of_lt (show r.sel < 2 ^ 1 from hsel)]

/-- Plain numbers that a port triple is written with decode as the triple does. -/
theorem decodeRaw_raw (r : Request) : decodeRaw r.raw = .ok (decode r) := by
  have hop : selectorOf r.op.toNat = .ok r.op := by
    rw [selectorOf_of_lt r.op.isLt, BitVec.ofNat_toNat, BitVec.setWidth_eq]
  have hword (v : Word) : operandOf v.toNat = .ok v := by
    rw [operandOf_of_lt v.isLt, BitVec.ofNat_toNat, BitVec.setWidth_eq]
  simp only [decodeRaw, Request.raw, hop, hword]

theorem decodeRaw_encodeRaw (i : Instr) : decodeRaw (encodeRaw i) = .ok i := by
  rw [encodeRaw_eq_raw, decodeRaw_raw, decode_encode]

/-- A selector the port cannot carry is refused whatever the operands are (R30). -/
theorem decodeRaw_of_selector {r : RawRequest} (hsel : 2 ≤ r.sel) :
    decodeRaw r = .error (.selectorNotEncoded r.sel) := by
  simp only [decodeRaw, selectorOf_of_two_le hsel]

theorem decodeRaw_of_first_operand {r : RawRequest} (hsel : r.sel < 2) (ha : 2 ^ 32 ≤ r.a) :
    decodeRaw r = .error (.operandNotAWord r.a) := by
  simp only [decodeRaw, selectorOf_of_lt hsel, operandOf_of_le ha]

theorem decodeRaw_of_second_operand {r : RawRequest} (hsel : r.sel < 2) (ha : r.a < 2 ^ 32) (hb : 2 ^ 32 ≤ r.b) :
    decodeRaw r = .error (.operandNotAWord r.b) := by
  simp only [decodeRaw, selectorOf_of_lt hsel, operandOf_of_lt ha, operandOf_of_le hb]

/-- Settles O34: encoder and decoder are inverse on the ports, a well-formed plain request is a port triple written out, and each
refusal names the first part that no port can carry. -/
theorem requestsAndPortTriplesCorrespond : Obligations.RequestsAndPortTriplesCorrespond := by
  unfold Obligations.RequestsAndPortTriplesCorrespond
  refine ⟨fun i => ⟨decode_encode i, decodeRaw_encodeRaw i, raw_wellFormed (encode i)⟩, encode_decode,
    fun r hwf => ?_, fun _ => decodeRaw_of_selector, fun _ => decodeRaw_of_first_operand,
    fun _ => decodeRaw_of_second_operand⟩
  obtain ⟨q, rfl⟩ := exists_raw_of_wellFormed hwf
  exact ⟨decode q, decodeRaw_raw q, by rw [encodeRaw_eq_raw, encode_decode]⟩

/-! ### Selector words and the written form -/

/-- Of the numbers a selector word may hold, 0 and 1 alone decode, and every width that has bits decodes them alike (R30). -/
theorem decodeTableWord_eq_some_iff (nbits w : Nat) (i : Instr) :
    decodeTableWord nbits w = some i ↔
      nbits ≠ 0 ∧ (w = 0 ∧ i = .qadd 0 0 ∨ w = 1 ∧ i = .qadd16 0 0) := by
  by_cases hbits : nbits = 0
  · simp [decodeTableWord, hbits]
  · rcases Nat.lt_or_ge w 2 with hw | hw
    · have hword : w = 0 ∨ w = 1 := by omega
      have hzero : decodeRaw { sel := 0, a := 0, b := 0 } = .ok (.qadd 0 0) := decodeRaw_encodeRaw (.qadd 0 0)
      have hone : decodeRaw { sel := 1, a := 0, b := 0 } = .ok (.qadd16 0 0) := decodeRaw_encodeRaw (.qadd16 0 0)
      rcases hword with rfl | rfl
      · simp [decodeTableWord, hbits, hzero, eq_comm]
      · simp [decodeTableWord, hbits, hone, eq_comm]
    · have hrefused := decodeRaw_of_selector (r := { sel := w, a := 0, b := 0 }) hw
      have hne : w ≠ 0 ∧ w ≠ 1 := by omega
      simp [decodeTableWord, hbits, hrefused, hne]

/-- Settles O33: the written-out words are evaluated, and a port triple is read by its selector. -/
theorem tableWordsDecodeAsWritten : Obligations.TableWordsDecodeAsWritten := by
  unfold Obligations.TableWordsDecodeAsWritten
  exact ⟨by decide, by decide, by decide, by decide, decodeTableWord_eq_some_iff, decode_op_zero _ _, decode_op_one _ _⟩

/-- Settles O41: the text is evaluated, and the request is R41's. -/
theorem writtenFormOfTheExample : Obligations.WrittenFormOfTheExample := by
  unfold Obligations.WrittenFormOfTheExample
  exact ⟨by decide, Machine.referenceTestOne⟩

end Sys2Proof
end

section
/-! The readings of the ports: `sint` and `bits` are inverse at every width (R7), and where the two lanes sit in a word (R21). -/

namespace Sys2Proof.Machine

/-! ### The signed reading and its inverse (R7) -/

theorem sint_of_signBit_false {k : Nat} {v : BitVec k} (h : v.getLsbD (k - 1) = false) : sint v = v.toNat := by
  rw [sint, BitVec.msb_eq_getLsbD_last, h, if_neg Bool.false_ne_true]

theorem sint_of_signBit_true {k : Nat} {v : BitVec k} (h : v.getLsbD (k - 1) = true) : sint v = v.toNat - 2 ^ k := by
  rw [sint, BitVec.msb_eq_getLsbD_last, h, if_pos rfl]

theorem sint_range {k : Nat} (v : BitVec k) : -2 ^ (k - 1) ≤ sint v ∧ sint v ≤ 2 ^ (k - 1) - 1 := by
  rw [sint_eq_toInt]
  exact ⟨BitVec.le_toInt v, Int.le_sub_one_of_lt BitVec.toInt_lt⟩

theorem bits_sint {k : Nat} (v : BitVec k) : bits k (sint v) = v := by
  rw [bits, sint_eq_toInt, BitVec.ofInt_toInt]

/-- An integer of the `k`-bit range survives being put into `k` bits. -/
theorem sint_bits {k : Nat} (hk : 0 < k) {n : Int} (hlo : -2 ^ (k - 1) ≤ n) (hhi : n ≤ 2 ^ (k - 1) - 1) :
    sint (bits k n) = n := by
  have hpow : (2 : Int) ^ k = 2 * 2 ^ (k - 1) := (mul_pow_sub_one hk.ne' 2).symm
  rw [sint_eq_toInt, bits, BitVec.toInt_ofInt]
  exact Int.bmod_eq_of_le_mul_two (by push_cast; omega) (by push_cast; omega)

theorem toNat_bits (k : Nat) (n : Int) : ((bits k n).toNat : Int) = n % 2 ^ k := by
  rw [bits, BitVec.toNat_ofInt, Int.toNat_of_nonneg (Int.emod_nonneg _ (by positivity)), Nat.cast_pow, Nat.cast_ofNat]

/-- Settles O1: the reading is the unsigned value corrected by the sign bit, and each of `sint` and `bits` undoes the other. -/
theorem signedReadingAndBitsAreInverse : Obligations.SignedReadingAndBitsAreInverse := by
  unfold Obligations.SignedReadingAndBitsAreInverse
  intro k hk
  refine ⟨fun v => ?_, fun n hlo hhi => ⟨sint_bits hk hlo hhi, toNat_bits k n⟩⟩
  obtain ⟨hlo, hhi⟩ := sint_range v
  exact ⟨sint_of_signBit_false, sint_of_signBit_true, hlo, hhi, bits_sint v⟩

/-! ### The lanes of a word (R21) -/

theorem loLane_getLsbD (v : Word) {i : Nat} (hi : i < 16) : (loLane v).getLsbD i = v.getLsbD i := by
  simp [loLane, hi]

theorem hiLane_getLsbD (v : Word) {i : Nat} (hi : i < 16) : (hiLane v).getLsbD i = v.getLsbD (16 + i) := by
  simp [hiLane, hi]

/-- Settles O3: a lane reads the word at its own bits, taking apart and putting together undo each other, and R21's word is
evaluated. -/
theorem lanesSitAtBits15To0And31To16 : Obligations.LanesSitAtBits15To0And31To16 := by
  unfold Obligations.LanesSitAtBits15To0And31To16
  exact ⟨fun v _ hi => ⟨loLane_getLsbD v hi, hiLane_getLsbD v hi⟩, pack_lanes,
    fun hi lo => ⟨loLane_pack hi lo, hiLane_pack hi lo⟩, by decide, by decide, by decide⟩

end Sys2Proof.Machine
end

section
/-! Overflow and its direction, in `QADD` and in a lane (R39, R54, R68), and where `QADD` and `QADD16` agree (R57). -/

namespace Sys2Proof.Machine

/-! ### The lane function (R54) -/

/-- The lane reads as the clamped exact sum: that sum fits the lane. -/
theorem lane_fst_toInt (u v : Lane) : (qadd16Lane u v).1.toInt = (saturate (u.toInt + v.toInt) .w16).1 := by
  rw [lane_eq_saturate]
  exact toInt_bits_lane (minOf_w16 ▸ minOf_le_saturate_fst _ .w16) (maxOf_w16 ▸ saturate_fst_le_maxOf _ .w16)

/-- Unsaturated, the lane reads as the exact sum. -/
theorem lane_fst_toInt_of_snd_false {u v : Lane} (hf : (qadd16Lane u v).2 = false) :
    (qadd16Lane u v).1.toInt = u.toInt + v.toInt := by
  obtain ⟨hlo, hhi⟩ := (lane_snd_eq_false_iff u v).mp hf
  rw [lane_fst_toInt, saturate_of_mem (by rwa [minOf_w16]) (by rwa [maxOf_w16])]

/-- A larger first operand gives no smaller lane: clamping is monotone. -/
theorem lane_fst_toInt_mono {u u' : Lane} (v : Lane) (h : u.toInt ≤ u'.toInt) :
    (qadd16Lane u v).1.toInt ≤ (qadd16Lane u' v).1.toInt := by
  rw [lane_fst_toInt, lane_fst_toInt]
  exact saturate_fst_mono .w16 (add_le_add_left h v.toInt)

theorem lane_zero_left (v : Lane) : qadd16Lane 0 v = (v, false) :=
  (lane_comm 0 v).trans (lane_zero_right v)

/-- The flag is the sign test. -/
theorem lane_snd_eq_signTest (u v : Lane) :
    (qadd16Lane u v).2 = (u.msb == v.msb && (u + v).msb != u.msb) := by
  rw [lane_eq_wrapping]

theorem lane_snd_of_signs_ne {u v : Lane} (h : u.msb ≠ v.msb) : (qadd16Lane u v).2 = false := by
  simp [lane_snd_eq_signTest, h]

/-- A lane saturates to the end of its range that lies on the side of both operands: one operand alone is in range, so a sum past
an end needs both operands strictly on that end's side of 0 (R39). -/
theorem lane_of_snd_true {u v : Lane} (hf : (qadd16Lane u v).2 = true) :
    (0 < u.toInt ∧ 0 < v.toInt ∧ (qadd16Lane u v).1 = 0x7FFF) ∨
    (u.toInt < 0 ∧ v.toInt < 0 ∧ (qadd16Lane u v).1 = 0x8000) := by
  obtain ⟨hu, hu'⟩ := lane_toInt_range u
  obtain ⟨hv, hv'⟩ := lane_toInt_range v
  rcases lane_cases u v with ⟨hx, e⟩ | ⟨hx, e⟩ | ⟨-, -, e⟩
  · exact .inl ⟨by omega, by omega, by rw [e]⟩
  · exact .inr ⟨by omega, by omega, by rw [e]⟩
  · simp [e] at hf

/-- Saturated, the lane is not the wrapping sum: it keeps the first operand's sign, which the wrapping sum has lost. -/
theorem lane_fst_ne_of_snd_true {u v : Lane} (hf : (qadd16Lane u v).2 = true) : (qadd16Lane u v).1 ≠ u + v := by
  intro he
  have hsign : (u + v).msb = u.msb := by
    rw [← he, BitVec.msb_eq_toInt, BitVec.msb_eq_toInt, decide_eq_decide]
    rcases lane_of_snd_true hf with ⟨hu, -, e⟩ | ⟨hu, -, e⟩
    · simp [e, hu.le]
    · simp [e, hu]
  simp [lane_snd_eq_signTest, hsign] at hf

/-- Settles O20: the lane function is `saturate` of the lane sum, and the packed adder is two lane functions side by side. -/
theorem qaddSixteenIsTwoLaneFunctions : Obligations.QaddSixteenIsTwoLaneFunctions := by
  unfold Obligations.QaddSixteenIsTwoLaneFunctions
  exact ⟨lane_eq_saturate, fun a b => gives_qadd16_of_eq (packed_eq a b)⟩

/-- Settles O21: the laws of the lane above; the extremes, and the two sums that deny association, are evaluated. -/
theorem laneFunctionObeysTheScalarLaws : Obligations.LaneFunctionObeysTheScalarLaws := by
  unfold Obligations.LaneFunctionObeysTheScalarLaws
  refine ⟨fun u v => ⟨lane_comm u v, lane_zero_right u, ⟨fun ⟨hf, _⟩ => (lane_snd_eq_false_iff u v).mp hf, fun hin => ?_⟩,
    lane_fst_of_snd_false, lane_fst_ne_of_snd_true, ?_⟩, fun _ _ v => lane_fst_toInt_mono v, by decide, by decide,
    by decide, by decide⟩
  · have hf := (lane_snd_eq_false_iff u v).mpr hin
    exact ⟨hf, lane_fst_toInt_of_snd_false hf⟩
  · rintro (hsigns | rfl | rfl)
    · exact lane_snd_of_signs_ne hsigns
    · rw [lane_zero_left]
    · rw [lane_zero_right]

/-! ### Overflow needs operands of one sign (R39, R68) -/

theorem scalar_snd_eq_true_iff (a b : Word) :
    (saturatingAdder32 a b).2 = true ↔ OutOfRange 32 (a.toInt + b.toInt) := by
  rw [scalar_snd_eq_signTest, signTest_eq_true_iff]

/-- `QADD` saturates to the end of the range that lies on the side of both operands (R39), as a lane does. -/
theorem scalar_of_snd_true {a b : Word} (hf : (saturatingAdder32 a b).2 = true) :
    (0 < a.toInt ∧ 0 < b.toInt ∧ (saturatingAdder32 a b).1 = 0x7FFFFFFF) ∨
    (a.toInt < 0 ∧ b.toInt < 0 ∧ (saturatingAdder32 a b).1 = 0x80000000) := by
  obtain ⟨ha, ha'⟩ := word_toInt_range a
  obtain ⟨hb, hb'⟩ := word_toInt_range b
  rcases scalar_cases a b with ⟨hx, e⟩ | ⟨hx, e⟩ | ⟨-, -, e⟩
  · exact .inl ⟨by omega, by omega, by rw [e]⟩
  · exact .inr ⟨by omega, by omega, by rw [e]⟩
  · simp [e] at hf

/-- Settles O25: each flag says that the exact sum is out of range, and a flag that is set tells the operands' common sign. -/
theorem overflowNeedsOperandsOfOneSign : Obligations.OverflowNeedsOperandsOfOneSign := by
  unfold Obligations.OverflowNeedsOperandsOfOneSign
  refine ⟨fun a b => ⟨(saturatingAdder32 a b).1, (saturatingAdder32 a b).2, gives_qadd a b, scalar_of_snd_true, ?_⟩,
    fun u v => ⟨?_, lane_of_snd_true⟩⟩
  · exact (scalar_snd_eq_true_iff a b).trans or_comm
  · exact (lane_snd_eq_true_iff u v).trans or_comm

/-- A lane whose sum is out of range is clamped to the side its first operand lies on. -/
theorem lane_of_outOfRange {u v : Lane} (h : OutOfRange 16 (u.toInt + v.toInt)) :
    qadd16Lane u v = (if u.toInt < 0 then 0x8000 else 0x7FFF, true) := by
  have hf : (qadd16Lane u v).2 = true := (lane_snd_eq_true_iff u v).mpr h
  refine Prod.ext ?_ hf
  rcases lane_of_snd_true hf with ⟨hu, -, e⟩ | ⟨hu, -, e⟩
  · rw [e, if_neg hu.not_gt]
  · rw [e, if_pos hu]

/-- Settles O26: each half of the result is its own lane, clamped to its own side. -/
theorem lanesThatSaturateTogetherKeepTheirOwnDirection : Obligations.LanesThatSaturateTogetherKeepTheirOwnDirection := by
  unfold Obligations.LanesThatSaturateTogetherKeepTheirOwnDirection
  intro a b hlo hhi
  apply gives_qadd16_of_eq
  rw [packed_eq, lane_of_outOfRange hlo, lane_of_outOfRange hhi, packLanes, Bool.or_self]
  rfl

/-! ### Where `QADD` and `QADD16` agree (R57) -/

theorem word_eq_iff_lanes_eq (v w : Word) :
    v = w ↔ v.extractLsb' 0 16 = w.extractLsb' 0 16 ∧ v.extractLsb' 16 16 = w.extractLsb' 16 16 := by
  refine ⟨fun h => h ▸ ⟨rfl, rfl⟩, fun ⟨hlo, hhi⟩ => ?_⟩
  rw [← pack_lanes v, hlo, hhi, pack_lanes]

/-- The low half of a sum of words is the sum of the low halves. -/
theorem loLane_add (a b : Word) : (a + b).extractLsb' 0 16 = a.extractLsb' 0 16 + b.extractLsb' 0 16 := by
  apply BitVec.eq_of_toNat_eq
  simp only [BitVec.extractLsb'_toNat, BitVec.toNat_add, Nat.shiftRight_zero]
  omega

/-- The high half of a sum of words is the sum of the high halves exactly when the low halves produce no carry. -/
theorem hiLane_add_eq_iff (a b : Word) :
    (a + b).extractLsb' 16 16 = a.extractLsb' 16 16 + b.extractLsb' 16 16 ↔
      (a.extractLsb' 0 16).toNat + (b.extractLsb' 0 16).toNat < 65536 := by
  have ha := a.isLt
  have hb := b.isLt
  simp only [← BitVec.toNat_inj, BitVec.extractLsb'_toNat, BitVec.toNat_add, Nat.shiftRight_eq_div_pow]
  omega

/-- Unsaturated, one result is the sum of the words and the other the sums of their halves: they differ by the carry alone. -/
theorem scalar_fst_eq_packed_fst_iff {a b : Word} (hf : (saturatingAdder32 a b).2 = false)
    (hf' : (saturatingAdder16PackedDual a b).2 = false) :
    (saturatingAdder32 a b).1 = (saturatingAdder16PackedDual a b).1 ↔
      (a.extractLsb' 0 16).toNat + (b.extractLsb' 0 16).toNat < 65536 := by
  rw [scalar_fst_of_snd_false hf, packed_fst_of_snd_false hf', word_eq_iff_lanes_eq, loLane_pack, hiLane_pack,
    and_iff_right (loLane_add a b), hiLane_add_eq_iff]

/-- A mask makes nothing of a result that is 0. -/
theorem ne_zero_and_mask {r : Word} (hr : r ≠ 0) (m : Word) : r ≠ 0 &&& m :=
  fun h => hr (h.trans BitVec.zero_and)

/-- Settles O24: the agreement is the carry's absence. No mask makes one result of the other, as on `1` and `0xFFFFFFFF` the scalar
result is 0 and the packed one is not, and on `0x0000FFFF` and `1` the other way round. The examples are evaluated. -/
theorem scalarAndPackedAgreeWithoutALowCarry : Obligations.ScalarAndPackedAgreeWithoutALowCarry := by
  unfold Obligations.ScalarAndPackedAgreeWithoutALowCarry
  refine ⟨fun a b => ⟨_, _, _, _, gives_qadd a b, gives_qadd16 a b, scalar_fst_eq_packed_fst_iff⟩, fun m => ?_, fun m => ?_,
    gives_qadd_of_eq (by decide), gives_qadd16_of_eq (by decide), gives_qadd_of_eq (by decide),
    gives_qadd16_of_eq (by decide), gives_qadd_of_eq (by decide), gives_qadd16_of_eq (by decide),
    gives_qadd_of_eq (by decide), gives_qadd16_of_eq (by decide)⟩
  · refine ⟨1, 0xFFFFFFFF, 0, false, 0xFFFF0000, false, gives_qadd_of_eq (by decide), gives_qadd16_of_eq (by decide), ?_⟩
    exact ne_zero_and_mask (by decide) m
  · refine ⟨0x0000FFFF, 1, 0x00010000, false, 0, false, gives_qadd_of_eq (by decide), gives_qadd16_of_eq (by decide), ?_⟩
    exact ne_zero_and_mask (by decide) m

end Sys2Proof.Machine
end

section
/-! The block, its output ports and its steps: the right outcome of a request and its uniqueness, the refinement to the bit-level
block (R46, R56), lists of requests (R25, R76), and the settled states (R18, R77). -/

namespace Sys2Proof.Machine

/-! ### Every request gives `sau` of itself (R10, R58) -/

theorem gives_decode (r : Request) : Gives (decode r) (sau r.op r.a r.b) :=
  exec_decode r

theorem gives_sau_encode (i : Instr) : Gives i (sau (encode i).op (encode i).a (encode i).b) := by
  have h := gives_decode (encode i)
  rwa [decode_encode] at h

/-- The output ports are a function of the input ports. -/
theorem outputs_congr {s s' : State} (h : s.request = s'.request) : s.outputs = s'.outputs :=
  congrArg (fun r : Request => sau r.op r.a r.b) h

/-- Settles O27: a request gives `sau` of itself from every state, and a step takes the output ports, which read the request
alone. -/
theorem outputsDependOnTheInputsAlone : Obligations.OutputsDependOnTheInputsAlone := by
  unfold Obligations.OutputsDependOnTheInputsAlone
  refine ⟨fun i => ⟨_, gives_sau_encode i⟩, fun s s' hop ha hb => ?_⟩
  have hout : s.outputs = s'.outputs := outputs_congr (by rw [State.request, State.request, hop, ha, hb])
  exact ⟨hout, s.outputs, step_eq s, by rw [hout]; exact step_eq s'⟩

/-- Settles O29: the selector picks the sub-block, whose outcome is what its operation gives; the fixed requests are evaluated. -/
theorem stepDrivesTheSelectedSubBlock : Obligations.StepDrivesTheSelectedSubBlock := by
  unfold Obligations.StepDrivesTheSelectedSubBlock
  exact ⟨fun s => ⟨rfl, step_eq s⟩, fun a b => ⟨rfl, gives_qadd a b⟩, fun a b => ⟨rfl, gives_qadd16 a b⟩, by decide,
    by decide, by decide⟩

/-- Settles O30: `step` and `exec` both answer `run` of the operation on the ports. -/
theorem stepRunsTheRequestOnThePorts : Obligations.StepRunsTheRequestOnThePorts := by
  unfold Obligations.StepRunsTheRequestOnThePorts
  rintro s _ rfl
  exact (exec_eq_run _ s).symm

/-- Settles O43: `exec` is `run` and `step` is `evaluate`, each as a next state. -/
theorem stepHasTheOneOutcomeOfTheBlock : Obligations.StepHasTheOneOutcomeOfTheBlock := by
  unfold Obligations.StepHasTheOneOutcomeOfTheBlock
  exact ⟨exec_eq_run, fun _ => rfl, evaluate_eq⟩

/-- Settles O35: `exec` and `step` answer a next state always, and the step of a presented triple moves no input port. -/
theorem everyRequestCompletes : Obligations.EveryRequestCompletes := by
  unfold Obligations.EveryRequestCompletes
  refine ⟨fun s r => ⟨_, step_eq (s.present r)⟩, fun i s => ?_, fun s => ?_, nofun⟩
  · rw [exec_eq_run]
    exact ⟨nofun, nofun⟩
  · rw [step_eq]
    exact ⟨nofun, nofun⟩

/-- Settles O36: the second evaluation takes the same output ports over what the first took from them. -/
theorem secondEvaluationChangesNothing : Obligations.SecondEvaluationChangesNothing := by
  unfold Obligations.SecondEvaluationChangesNothing
  exact fun s => ⟨s.take s.outputs, step_eq s, by rw [step_eq, outputs_take, take_take], rfl, rfl, rfl⟩

/-! ### Placed selector words (R30) -/

theorem withFetchWord_of_some {nbits w : Nat} {i : Instr} (h : decodeTableWord nbits w = some i) (s : State) :
    s.withFetchWord nbits w = s.present (encode i) := by
  rw [State.withFetchWord, State.presentTableWord, h]

theorem withFetchWord_of_none {nbits w : Nat} (h : decodeTableWord nbits w = none) (s : State) :
    s.withFetchWord nbits w = s := by
  rw [State.withFetchWord, State.presentTableWord, h]

/-- Settles O31: a word that decodes presents the triple of its operation, which the ports then decode back to. -/
theorem placedWordIsTheOneThatRuns : Obligations.PlacedWordIsTheOneThatRuns := by
  unfold Obligations.PlacedWordIsTheOneThatRuns
  refine fun s nbits w => ⟨fun i hword => ?_, fun hword => withFetchWord_of_none hword s⟩
  rw [withFetchWord_of_some hword]
  exact ⟨stepRunsTheRequestOnThePorts _ i (decode_encode i), gives_sau_encode i, present_taken s (encode i)⟩

/-! ### The right outcome (R36, R40, R48) -/

/-- The scalar result shows the clamped exact sum. -/
theorem scalar_showsClamped (a b : Word) : ShowsClamped (saturatingAdder32 a b).1 (a.toInt + b.toInt) := by
  rw [ShowsClamped, scalar_fst_toInt, saturate_fst_eq_clamp]
  rfl

theorem lane_showsClamped (u v : Lane) : ShowsClamped (qadd16Lane u v).1 (u.toInt + v.toInt) := by
  rw [ShowsClamped, lane_fst_toInt, saturate_fst_eq_clamp]
  rfl

theorem packed_snd_eq_true_iff (a b : Word) :
    (saturatingAdder16PackedDual a b).2 = true ↔
      OutOfRange 16 ((a.extractLsb' 0 16).toInt + (b.extractLsb' 0 16).toInt) ∨
      OutOfRange 16 ((a.extractLsb' 16 16).toInt + (b.extractLsb' 16 16).toInt) := by
  rw [packed_eq, Bool.or_eq_true, lane_snd_eq_true_iff, lane_snd_eq_true_iff]

/-- The block's function answers the right outcome of every triple. -/
theorem rightOutcome_sau (op : Selector) (a b : Word) : RightOutcome op a b (sau op a b) := by
  constructor
  · rintro rfl
    exact ⟨scalar_showsClamped a b, scalar_snd_eq_true_iff a b⟩
  · rintro rfl
    refine ⟨?_, ?_, packed_snd_eq_true_iff a b⟩
    · exact (packed_loLane a b).symm ▸ lane_showsClamped _ _
    · exact (packed_hiLane a b).symm ▸ lane_showsClamped _ _

theorem rightOutcome_outputs (s : State) : RightOutcome s.op s.a s.b (s.result, s.sat) :=
  rightOutcome_sau s.op s.a s.b

/-- Two vectors that show the same clamped integer are one vector. -/
theorem showsClamped_unique {k : Nat} {r r' : BitVec k} {n : Int} (h : ShowsClamped r n) (h' : ShowsClamped r' n) :
    r = r' :=
  BitVec.toInt_inj.mp (h.trans h'.symm)

/-- A triple has one right outcome only: the numbers shown fix the bits of every part of the result. -/
theorem rightOutcome_unique {op : Selector} {a b : Word} {out out' : Word × Bool} (h : RightOutcome op a b out)
    (h' : RightOutcome op a b out') : out = out' := by
  obtain ⟨hscalar, hpacked⟩ := h
  obtain ⟨hscalar', hpacked'⟩ := h'
  rcases selector_cases op with hop | hop
  · obtain ⟨hr, hsat⟩ := hscalar hop
    obtain ⟨hr', hsat'⟩ := hscalar' hop
    exact Prod.ext (showsClamped_unique hr hr') (Bool.eq_iff_iff.mpr (hsat.trans hsat'.symm))
  · obtain ⟨hlo, hhi, hsat⟩ := hpacked hop
    obtain ⟨hlo', hhi', hsat'⟩ := hpacked' hop
    refine Prod.ext ?_ (Bool.eq_iff_iff.mpr (hsat.trans hsat'.symm))
    exact (word_eq_iff_lanes_eq _ _).mpr ⟨showsClamped_unique hlo hlo', showsClamped_unique hhi hhi'⟩

/-- Settles O28: a step takes the output ports, and for either selector the right outcome says when its indicator is set. -/
theorem satTellsClampingInThisEvaluation : Obligations.SatTellsClampingInThisEvaluation := by
  unfold Obligations.SatTellsClampingInThisEvaluation
  refine fun s => ⟨step_eq s, ?_⟩
  obtain ⟨hscalar, hpacked⟩ := rightOutcome_outputs s
  rcases selector_cases s.op with hop | hop
  · obtain ⟨-, hsat⟩ := hscalar hop
    simpa [hop] using hsat
  · obtain ⟨-, -, hsat⟩ := hpacked hop
    simpa [hop] using hsat

/-- Settles O42: the output ports are `sau` of the input ports, which is the right outcome and reads nothing that was taken. -/
theorem outputPortsFollowTheInputPorts : Obligations.OutputPortsFollowTheInputPorts := by
  unfold Obligations.OutputPortsFollowTheInputPorts
  exact ⟨rightOutcome_outputs, fun s r => ⟨outputs_present s r, gives_decode r⟩, outputs_take⟩

/-! ### The bit-level block (R46, R56) -/

/-- Settles O38: a step takes the output ports; the selected sub-block is one wrapping adder with a sign test, or two on the halves
with no carry between them. -/
theorem stepIsTheBitLevelBlock : Obligations.StepIsTheBitLevelBlock := by
  unfold Obligations.StepIsTheBitLevelBlock
  intro s adder one lo hi
  have hlo : qadd16Lane (s.a.extractLsb' 0 16) (s.b.extractLsb' 0 16) = lo := lane_eq_wrapping _ _
  have hhi : qadd16Lane (s.a.extractLsb' 16 16) (s.b.extractLsb' 16 16) = hi := lane_eq_wrapping _ _
  have hone : saturatingAdder32 s.a s.b = one := scalar_eq_wrapping s.a s.b
  have hout : s.outputs = (if s.op = 0 then one.1 else hi.1 ++ lo.1, if s.op = 0 then one.2 else lo.2 || hi.2) := by
    rw [State.outputs, sau, hone, packed_eq, hlo, hhi, packLanes]
    split <;> rfl
  rw [step_eq, hout, State.take]

/-! ### Lists of requests (R25, R76) -/

/-- Each request of a list gives its own outcome, from whatever state the requests before it leave. -/
theorem serve_eq_map (rs : List Request) (s : State) : serve rs s = rs.map (fun r => sau r.op r.a r.b) := by
  induction rs generalizing s with
  | nil => rfl
  | cons r rs ih => rw [serve_cons, ih, List.map_cons]

/-- Settles O37: what is served is a map over the requests, so a reordering of them reorders the pairs alike. -/
theorem evaluationsMayBeReordered : Obligations.EvaluationsMayBeReordered := by
  unfold Obligations.EvaluationsMayBeReordered
  refine ⟨serve_eq_map, fun rs rs' hperm s s' => ?_⟩
  rw [serve_eq_map, serve_eq_map]
  refine ⟨?_, (hperm.map _).any_eq⟩
  rw [← List.map_prod_left_eq_zip, ← List.map_prod_left_eq_zip]
  exact hperm.map _

/-! ### Settled states (R18, R77) -/

theorem settled_take_outputs (s : State) : Settled (s.take s.outputs) :=
  rightOutcome_sau s.op s.a s.b

/-- Of the states on the same input ports one only is settled, so a settled state has nothing left to take. -/
theorem take_outputs_of_settled {s : State} (h : Settled s) : s.take s.outputs = s := by
  have htaken : s.outputs = s.taken := rightOutcome_unique (rightOutcome_outputs s) h
  rw [htaken, State.take]

/-- Settles O39: a step takes the right outcome of the request on the ports; a settled state has that outcome, the only right one,
as taken already. -/
theorem everyStepSettlesThePorts : Obligations.EveryStepSettlesThePorts := by
  unfold Obligations.EveryStepSettlesThePorts
  refine ⟨fun s => ⟨s.take s.outputs, step_eq s, settled_take_outputs s⟩, fun s t hs hstep => ?_⟩
  rw [step_eq, take_outputs_of_settled hs, Host.Outcome.next.injEq] at hstep
  exact ⟨hstep ▸ hs, hstep.symm⟩

/-- Settles O40: the outcome taken at reset is the one on its output ports, which is the right one. -/
theorem resetPortsAreSettled : Obligations.ResetPortsAreSettled := by
  unfold Obligations.ResetPortsAreSettled
  have htaken : State.reset.taken = State.reset.outputs := by decide
  exact ⟨settled_take_outputs State.reset, rfl, htaken, rfl⟩

end Sys2Proof.Machine
end
